-- ==== Sys2Proof/Word.lean ====
section
/-! DEFINITION. The words of the block and the one shape its fixed-size internal memories have
(`10_state.md` R30: "entries × width"; the smallest addressable unit is one entry). -/

namespace Sys2Proof

/-- A field element, a logarithm, a coefficient, an order, a soft symbol: 8 bits. -/
abbrev Byte := BitVec 8

/-- A scalar register, a command word, a generator polynomial: 32 bits (R11, R70). -/
abbrev Word := BitVec 32

/-- A path metric or a branch distance: 16 bits, unsigned (R22, R23). -/
abbrev Metric := BitVec 16

/-- An internal memory of exactly `n` entries, entry 0 first. -/
structure Mem (α : Type) (n : Nat) where
  cells : List α
  size : cells.length = n
deriving DecidableEq, Repr

/-- The memory whose entry `k` is `f k`. -/
def Mem.ofFn {α : Type} (n : Nat) (f : Nat → α) : Mem α n :=
  ⟨(List.range n).map f, by simp⟩

/-- The memory with every entry `v`. -/
def Mem.fill {α : Type} (n : Nat) (v : α) : Mem α n :=
  ⟨List.replicate n v, by simp⟩

/-- Entry `i`, for an index that its type keeps inside the memory (a register number). -/
def Mem.get {α : Type} {n : Nat} (m : Mem α n) (i : Fin n) : α :=
  m.cells[i]'(by rw [m.size]; exact i.isLt)

/-- Entry `k`. No command forms an index outside a memory (R50); the default that a `k ≥ n` would
give is never read in a state that satisfies `State.Inv`. -/
def Mem.read {α : Type} [Inhabited α] {n : Nat} (m : Mem α n) (k : Nat) : α :=
  m.cells.getD k default

/-- The memory with entry `k` replaced (no entry, where `k ≥ n`). -/
def Mem.write {α : Type} {n : Nat} (m : Mem α n) (k : Nat) (v : α) : Mem α n :=
  ⟨m.cells.set k v, by simp [m.size]⟩

/-- Every entry replaced by a function of its index and its old value. -/
def Mem.update {α : Type} {n : Nat} (m : Mem α n) (f : Nat → α → α) : Mem α n :=
  ⟨m.cells.zipIdx.map fun e => f e.2 e.1, by simp [m.size]⟩

/-- `for k in 0..n: acc <- f acc k` of `00_scope.md` §5 (never empty: `0..n` with `n ≥ 0`). -/
def forUpTo {σ : Type} (n : Nat) (init : σ) (f : σ → Nat → σ) : σ :=
  (List.range (n + 1)).foldl f init

/-- `for k in lo..hi: acc <- f acc k`; not at all when `hi < lo`. -/
def forRange {σ : Type} (lo hi : Nat) (init : σ) (f : σ → Nat → σ) : σ :=
  (List.range' lo (hi + 1 - lo)).foldl f init

end Sys2Proof
end

