-- ==== Sys2Proof/Syntax.lean ====
section
/-! DEFINITION. The 51 commands of `30_encoding.md` R75, one constructor per row of the opcode
table, in the table's order. The operands follow R74's letters: `x` a scalar register, `P` a
polynomial register (each a number 0..15 by its type); a literal index `#` and an immediate read as
an unsigned number are plain numbers, bounded in `WellFormed`; an immediate read as bits (`LI`,
`LIH`, the two halves of `P.LDCI`) is a bit vector (R73). -/

namespace Sys2Proof

/-- The number of a scalar register `x[0]` to `x[15]` (R11). -/
abbrev XReg := Fin 16

/-- The number of a polynomial register `P[0]` to `P[15]` (R13). -/
abbrev PReg := Fin 16

inductive Instr where
  -- data movement and control (45_system_ops.md)
  | nop
  | li (d : XReg) (imm : BitVec 16)
  | lih (d : XReg) (imm : BitVec 16)
  | mov (d a : XReg)
  | clrf
  -- field unit (40_gf_field.md)
  | gfBuild (a : XReg)
  | gfAdd (d a b : XReg)
  | gfSub (d a b : XReg)
  | gfMul (d a b : XReg)
  | gfDiv (d a b : XReg)
  | gfSum (d a b : XReg)
  | gfPow (d a b : XReg)
  | gfLog (d a : XReg)
  | gfExp (d a : XReg)
  | gfMullog (d a b : XReg)
  | gfDivlog (d a b : XReg)
  -- polynomial unit (41_polynomial.md)
  | pSetord (d : PReg) (n : Nat)
  | pGetord (d : XReg) (a : PReg)
  | pLdc (d : PReg) (a b : XReg)
  | pStc (d : XReg) (a : PReg) (b : XReg)
  | pClr (d : PReg)
  | pMov (d a : PReg)
  | pMul (d a b : PReg)
  | pMod (d a b : PReg)
  | pDer (d a : PReg)
  | pEval (d : XReg) (a : PReg) (b : XReg)
  | pPows (d : PReg) (a : XReg)
  | pEvalp (d : XReg) (a b : PReg)
  | pTolog (d a : PReg)
  | pEvall (d : XReg) (a b : PReg)
  | pRoots (d a : PReg)
  | pLdci (d : PReg) (idx val : Byte)
  -- branch-metric unit (42_branch_metric.md)
  | bmHard (d a b : XReg)
  | bmSoftl (d a : XReg)
  | bmSoftq (d a : XReg)
  | bmSym (j : Nat) (a : XReg)
  | bmSymi (j n : Nat)
  -- trellis unit and encoder (43_viterbi.md, 44_conv_encoder.md)
  | vtCfg (a b : XReg)
  | vtInit
  | vtReset (a : XReg)
  | vtSteph (a : XReg)
  | vtSteps
  | vtFlush
  | vtMode (n : Nat)
  | encRst
  | encBit (d a : XReg)
  | vtQlen (d : XReg)
  | vtRdq (d a : XReg)
  | vtTab (d a : XReg)
  | vtPm (d a : XReg)
  | vtPoly (j : Nat) (a : XReg)
deriving DecidableEq, Repr

/-- The mnemonic of the opcode table's row (R75). -/
def Instr.mnemonic : Instr → String
  | .nop => "NOP"
  | .li _ _ => "LI"
  | .lih _ _ => "LIH"
  | .mov _ _ => "MOV"
  | .clrf => "CLRF"
  | .gfBuild _ => "GF.BUILD"
  | .gfAdd _ _ _ => "GF.ADD"
  | .gfSub _ _ _ => "GF.SUB"
  | .gfMul _ _ _ => "GF.MUL"
  | .gfDiv _ _ _ => "GF.DIV"
  | .gfSum _ _ _ => "GF.SUM"
  | .gfPow _ _ _ => "GF.POW"
  | .gfLog _ _ => "GF.LOG"
  | .gfExp _ _ => "GF.EXP"
  | .gfMullog _ _ _ => "GF.MULLOG"
  | .gfDivlog _ _ _ => "GF.DIVLOG"
  | .pSetord _ _ => "P.SETORD"
  | .pGetord _ _ => "P.GETORD"
  | .pLdc _ _ _ => "P.LDC"
  | .pStc _ _ _ => "P.STC"
  | .pClr _ => "P.CLR"
  | .pMov _ _ => "P.MOV"
  | .pMul _ _ _ => "P.MUL"
  | .pMod _ _ _ => "P.MOD"
  | .pDer _ _ => "P.DER"
  | .pEval _ _ _ => "P.EVAL"
  | .pPows _ _ => "P.POWS"
  | .pEvalp _ _ _ => "P.EVALP"
  | .pTolog _ _ => "P.TOLOG"
  | .pEvall _ _ _ => "P.EVALL"
  | .pRoots _ _ => "P.ROOTS"
  | .pLdci _ _ _ => "P.LDCI"
  | .bmHard _ _ _ => "BM.HARD"
  | .bmSoftl _ _ => "BM.SOFTL"
  | .bmSoftq _ _ => "BM.SOFTQ"
  | .bmSym _ _ => "BM.SYM"
  | .bmSymi _ _ => "BM.SYMI"
  | .vtCfg _ _ => "VT.CFG"
  | .vtInit => "VT.INIT"
  | .vtReset _ => "VT.RESET"
  | .vtSteph _ => "VT.STEPH"
  | .vtSteps => "VT.STEPS"
  | .vtFlush => "VT.FLUSH"
  | .vtMode _ => "VT.MODE"
  | .encRst => "ENC.RST"
  | .encBit _ _ => "ENC.BIT"
  | .vtQlen _ => "VT.QLEN"
  | .vtRdq _ _ => "VT.RDQ"
  | .vtTab _ _ => "VT.TAB"
  | .vtPm _ _ => "VT.PM"
  | .vtPoly _ _ => "VT.POLY"

end Sys2Proof
end

