-- ==== Sys2Proof/WellFormed.lean ====
section
/-! DEFINITION. What an instruction must satisfy to be one that a command word can carry: a literal
index fits its 4-bit field (R71, R74) and an unsigned immediate its 16-bit field (R72, R73). The
register numbers and the immediates read as bits fit by their types. Operand values that fit their
field but that the command itself refuses (an order above 255, an index above 7) are well formed:
the command then raises `OperandRange`. -/

namespace Sys2Proof

/-- A literal index of R74 fits the 4-bit field `d`. -/
abbrev fitsLiteral (j : Nat) : Prop := j < 16

/-- An unsigned immediate of R73 fits the 16-bit field `imm16`. -/
abbrev fitsImm16 (n : Nat) : Prop := n < 65536

/-- The instruction is one that a command word can carry. -/
def Instr.wellFormed : Instr → Bool
  | .pSetord _ n => decide (fitsImm16 n)
  | .bmSym j _ => decide (fitsLiteral j)
  | .bmSymi j n => decide (fitsLiteral j ∧ fitsImm16 n)
  | .vtMode n => decide (fitsImm16 n)
  | .vtPoly j _ => decide (fitsLiteral j)
  | .nop | .li _ _ | .lih _ _ | .mov _ _ | .clrf => true
  | .gfBuild _ | .gfAdd _ _ _ | .gfSub _ _ _ | .gfMul _ _ _ | .gfDiv _ _ _ | .gfSum _ _ _
  | .gfPow _ _ _ | .gfLog _ _ | .gfExp _ _ | .gfMullog _ _ _ | .gfDivlog _ _ _ => true
  | .pGetord _ _ | .pLdc _ _ _ | .pStc _ _ _ | .pClr _ | .pMov _ _ | .pMul _ _ _ | .pMod _ _ _
  | .pDer _ _ | .pEval _ _ _ | .pPows _ _ | .pEvalp _ _ _ | .pTolog _ _ | .pEvall _ _ _
  | .pRoots _ _ | .pLdci _ _ _ => true
  | .bmHard _ _ _ | .bmSoftl _ _ | .bmSoftq _ _ => true
  | .vtCfg _ _ | .vtInit | .vtReset _ | .vtSteph _ | .vtSteps | .vtFlush | .encRst | .encBit _ _
  | .vtQlen _ | .vtRdq _ _ | .vtTab _ _ | .vtPm _ _ => true

end Sys2Proof
end

