-- ==== Sys2Proof/Decode.lean ====
section
/-! DEFINITION. The decoder and the encoder of `30_encoding.md`: one 32-bit word, formats R and I
(R70 to R72), the opcode map (R75), and every other word illegal (R76). -/

namespace Sys2Proof

/-! ## Fields (R70 to R72) -/

/-- Bits 31:24. -/
def opcodeField (w : Word) : BitVec 8 := w.extractLsb' 24 8

/-- Bits 23:20. -/
def dField (w : Word) : BitVec 4 := w.extractLsb' 20 4

/-- Bits 19:16. -/
def aField (w : Word) : BitVec 4 := w.extractLsb' 16 4

/-- Bits 15:12 (format R). -/
def bField (w : Word) : BitVec 4 := w.extractLsb' 12 4

/-- Bits 11:0 (format R), which must be 0. -/
def zeroField (w : Word) : BitVec 12 := w.extractLsb' 0 12

/-- Bits 15:0 (format I). -/
def immField (w : Word) : BitVec 16 := w.extractLsb' 0 16

/-- Field `d` as a register number. -/
def dReg (w : Word) : Fin 16 := ⟨(dField w).toNat, (dField w).isLt⟩

/-- Field `a` as a register number. -/
def aReg (w : Word) : Fin 16 := ⟨(aField w).toNat, (aField w).isLt⟩

/-- Field `b` as a register number. -/
def bReg (w : Word) : Fin 16 := ⟨(bField w).toNat, (bField w).isLt⟩

/-- `imm16[15:8]` (R73, `P.LDCI`). -/
def hiByte (imm : BitVec 16) : Byte := imm.extractLsb' 8 8

/-- `imm16[7:0]` (R73, `P.LDCI`). -/
def loByte (imm : BitVec 16) : Byte := imm.extractLsb' 0 8

/-- A word of format R is `i` if each field the opcode does not use is 0 and bits 11:0 are 0
(R71, R76). -/
def formatR (w : Word) (usesD usesA usesB : Bool) (i : Instr) : Option Instr :=
  if (usesD || (dField w).toNat == 0) && (usesA || (aField w).toNat == 0)
      && (usesB || (bField w).toNat == 0) && (zeroField w).toNat == 0
  then some i else none

/-- A word of format I is `i` if field `a` is 0, and field `d` where the opcode does not use it
(R72, R76). -/
def formatI (w : Word) (usesD : Bool) (i : Instr) : Option Instr :=
  if (usesD || (dField w).toNat == 0) && (aField w).toNat == 0 then some i else none

/-- The command a word stands for, by the opcode map of R75; `none` where the word is illegal (R76). -/
def decode (w : Word) : Option Instr :=
  match opcodeField w with
  | 0x00#8 => formatR w false false false .nop
  | 0x01#8 => formatI w true (.li (dReg w) (immField w))
  | 0x02#8 => formatI w true (.lih (dReg w) (immField w))
  | 0x03#8 => formatR w true true false (.mov (dReg w) (aReg w))
  | 0x04#8 => formatR w false false false .clrf
  | 0x10#8 => formatR w false true false (.gfBuild (aReg w))
  | 0x11#8 => formatR w true true true (.gfAdd (dReg w) (aReg w) (bReg w))
  | 0x12#8 => formatR w true true true (.gfSub (dReg w) (aReg w) (bReg w))
  | 0x13#8 => formatR w true true true (.gfMul (dReg w) (aReg w) (bReg w))
  | 0x14#8 => formatR w true true true (.gfDiv (dReg w) (aReg w) (bReg w))
  | 0x15#8 => formatR w true true true (.gfSum (dReg w) (aReg w) (bReg w))
  | 0x16#8 => formatR w true true true (.gfPow (dReg w) (aReg w) (bReg w))
  | 0x17#8 => formatR w true true false (.gfLog (dReg w) (aReg w))
  | 0x18#8 => formatR w true true false (.gfExp (dReg w) (aReg w))
  | 0x19#8 => formatR w true true true (.gfMullog (dReg w) (aReg w) (bReg w))
  | 0x1A#8 => formatR w true true true (.gfDivlog (dReg w) (aReg w) (bReg w))
  | 0x20#8 => formatI w true (.pSetord (dReg w) (immField w).toNat)
  | 0x21#8 => formatR w true true false (.pGetord (dReg w) (aReg w))
  | 0x22#8 => formatR w true true true (.pLdc (dReg w) (aReg w) (bReg w))
  | 0x23#8 => formatR w true true true (.pStc (dReg w) (aReg w) (bReg w))
  | 0x24#8 => formatR w true false false (.pClr (dReg w))
  | 0x25#8 => formatR w true true false (.pMov (dReg w) (aReg w))
  | 0x26#8 => formatR w true true true (.pMul (dReg w) (aReg w) (bReg w))
  | 0x27#8 => formatR w true true true (.pMod (dReg w) (aReg w) (bReg w))
  | 0x28#8 => formatR w true true false (.pDer (dReg w) (aReg w))
  | 0x29#8 => formatR w true true true (.pEval (dReg w) (aReg w) (bReg w))
  | 0x2A#8 => formatR w true true false (.pPows (dReg w) (aReg w))
  | 0x2B#8 => formatR w true true true (.pEvalp (dReg w) (aReg w) (bReg w))
  | 0x2C#8 => formatR w true true false (.pTolog (dReg w) (aReg w))
  | 0x2D#8 => formatR w true true true (.pEvall (dReg w) (aReg w) (bReg w))
  | 0x2E#8 => formatR w true true false (.pRoots (dReg w) (aReg w))
  | 0x2F#8 => formatI w true (.pLdci (dReg w) (hiByte (immField w)) (loByte (immField w)))
  | 0x30#8 => formatR w true true true (.bmHard (dReg w) (aReg w) (bReg w))
  | 0x31#8 => formatR w true true false (.bmSoftl (dReg w) (aReg w))
  | 0x32#8 => formatR w true true false (.bmSoftq (dReg w) (aReg w))
  | 0x33#8 => formatR w true true false (.bmSym (dField w).toNat (aReg w))
  | 0x34#8 => formatI w true (.bmSymi (dField w).toNat (immField w).toNat)
  | 0x40#8 => formatR w false true true (.vtCfg (aReg w) (bReg w))
  | 0x41#8 => formatR w false false false .vtInit
  | 0x42#8 => formatR w false true false (.vtReset (aReg w))
  | 0x43#8 => formatR w false true false (.vtSteph (aReg w))
  | 0x44#8 => formatR w false false false .vtSteps
  | 0x45#8 => formatR w false false false .vtFlush
  | 0x46#8 => formatI w false (.vtMode (immField w).toNat)
  | 0x47#8 => formatR w false false false .encRst
  | 0x48#8 => formatR w true true false (.encBit (dReg w) (aReg w))
  | 0x49#8 => formatR w true false false (.vtQlen (dReg w))
  | 0x4A#8 => formatR w true true false (.vtRdq (dReg w) (aReg w))
  | 0x4B#8 => formatR w true true false (.vtTab (dReg w) (aReg w))
  | 0x4C#8 => formatR w true true false (.vtPm (dReg w) (aReg w))
  | 0x4D#8 => formatR w true true false (.vtPoly (dField w).toNat (aReg w))
  | _ => none

/-! ## The encoder -/

/-- A register number in its 4-bit field. -/
def regBits (r : Fin 16) : BitVec 4 := BitVec.ofNat 4 r.val

/-- A word of format R: opcode, `d`, `a`, `b`, twelve zero bits (R71). -/
def wordR (opcode : BitVec 8) (d a b : BitVec 4) : Word := opcode ++ d ++ a ++ b ++ 0#12

/-- A word of format I: opcode, `d`, a zero field `a`, `imm16` (R72). -/
def wordI (opcode : BitVec 8) (d : BitVec 4) (imm : BitVec 16) : Word := opcode ++ d ++ 0#4 ++ imm

/-- The word of an instruction, by the opcode map of R75. -/
def encode : Instr → Word
  | .nop => wordR 0x00#8 0 0 0
  | .li d imm => wordI 0x01#8 (regBits d) imm
  | .lih d imm => wordI 0x02#8 (regBits d) imm
  | .mov d a => wordR 0x03#8 (regBits d) (regBits a) 0
  | .clrf => wordR 0x04#8 0 0 0
  | .gfBuild a => wordR 0x10#8 0 (regBits a) 0
  | .gfAdd d a b => wordR 0x11#8 (regBits d) (regBits a) (regBits b)
  | .gfSub d a b => wordR 0x12#8 (regBits d) (regBits a) (regBits b)
  | .gfMul d a b => wordR 0x13#8 (regBits d) (regBits a) (regBits b)
  | .gfDiv d a b => wordR 0x14#8 (regBits d) (regBits a) (regBits b)
  | .gfSum d a b => wordR 0x15#8 (regBits d) (regBits a) (regBits b)
  | .gfPow d a b => wordR 0x16#8 (regBits d) (regBits a) (regBits b)
  | .gfLog d a => wordR 0x17#8 (regBits d) (regBits a) 0
  | .gfExp d a => wordR 0x18#8 (regBits d) (regBits a) 0
  | .gfMullog d a b => wordR 0x19#8 (regBits d) (regBits a) (regBits b)
  | .gfDivlog d a b => wordR 0x1A#8 (regBits d) (regBits a) (regBits b)
  | .pSetord d n => wordI 0x20#8 (regBits d) (BitVec.ofNat 16 n)
  | .pGetord d a => wordR 0x21#8 (regBits d) (regBits a) 0
  | .pLdc d a b => wordR 0x22#8 (regBits d) (regBits a) (regBits b)
  | .pStc d a b => wordR 0x23#8 (regBits d) (regBits a) (regBits b)
  | .pClr d => wordR 0x24#8 (regBits d) 0 0
  | .pMov d a => wordR 0x25#8 (regBits d) (regBits a) 0
  | .pMul d a b => wordR 0x26#8 (regBits d) (regBits a) (regBits b)
  | .pMod d a b => wordR 0x27#8 (regBits d) (regBits a) (regBits b)
  | .pDer d a => wordR 0x28#8 (regBits d) (regBits a) 0
  | .pEval d a b => wordR 0x29#8 (regBits d) (regBits a) (regBits b)
  | .pPows d a => wordR 0x2A#8 (regBits d) (regBits a) 0
  | .pEvalp d a b => wordR 0x2B#8 (regBits d) (regBits a) (regBits b)
  | .pTolog d a => wordR 0x2C#8 (regBits d) (regBits a) 0
  | .pEvall d a b => wordR 0x2D#8 (regBits d) (regBits a) (regBits b)
  | .pRoots d a => wordR 0x2E#8 (regBits d) (regBits a) 0
  | .pLdci d idx val => wordI 0x2F#8 (regBits d) (idx ++ val)
  | .bmHard d a b => wordR 0x30#8 (regBits d) (regBits a) (regBits b)
  | .bmSoftl d a => wordR 0x31#8 (regBits d) (regBits a) 0
  | .bmSoftq d a => wordR 0x32#8 (regBits d) (regBits a) 0
  | .bmSym j a => wordR 0x33#8 (BitVec.ofNat 4 j) (regBits a) 0
  | .bmSymi j n => wordI 0x34#8 (BitVec.ofNat 4 j) (BitVec.ofNat 16 n)
  | .vtCfg a b => wordR 0x40#8 0 (regBits a) (regBits b)
  | .vtInit => wordR 0x41#8 0 0 0
  | .vtReset a => wordR 0x42#8 0 (regBits a) 0
  | .vtSteph a => wordR 0x43#8 0 (regBits a) 0
  | .vtSteps => wordR 0x44#8 0 0 0
  | .vtFlush => wordR 0x45#8 0 0 0
  | .vtMode n => wordI 0x46#8 0 (BitVec.ofNat 16 n)
  | .encRst => wordR 0x47#8 0 0 0
  | .encBit d a => wordR 0x48#8 (regBits d) (regBits a) 0
  | .vtQlen d => wordR 0x49#8 (regBits d) 0 0
  | .vtRdq d a => wordR 0x4A#8 (regBits d) (regBits a) 0
  | .vtTab d a => wordR 0x4B#8 (regBits d) (regBits a) 0
  | .vtPm d a => wordR 0x4C#8 (regBits d) (regBits a) 0
  | .vtPoly j a => wordR 0x4D#8 (BitVec.ofNat 4 j) (regBits a) 0

/-! ## The opcode table as rows -/

/-- A row of the opcode table: a word `w` is the row's exactly when `w` and `mask` is `match`
(R75). -/
structure OpcodeRow where
  mnemonic : String
  pattern : Word
  mask : Word
deriving DecidableEq, Repr

/-- The 51 rows of `spec/opcode_table.json`, in its order. -/
def opcodeRows : List OpcodeRow :=
  [
    ⟨"NOP", 0x00000000#32, 0xFFFFFFFF#32⟩,
    ⟨"LI", 0x01000000#32, 0xFF0F0000#32⟩,
    ⟨"LIH", 0x02000000#32, 0xFF0F0000#32⟩,
    ⟨"MOV", 0x03000000#32, 0xFF00FFFF#32⟩,
    ⟨"CLRF", 0x04000000#32, 0xFFFFFFFF#32⟩,
    ⟨"GF.BUILD", 0x10000000#32, 0xFFF0FFFF#32⟩,
    ⟨"GF.ADD", 0x11000000#32, 0xFF000FFF#32⟩,
    ⟨"GF.SUB", 0x12000000#32, 0xFF000FFF#32⟩,
    ⟨"GF.MUL", 0x13000000#32, 0xFF000FFF#32⟩,
    ⟨"GF.DIV", 0x14000000#32, 0xFF000FFF#32⟩,
    ⟨"GF.SUM", 0x15000000#32, 0xFF000FFF#32⟩,
    ⟨"GF.POW", 0x16000000#32, 0xFF000FFF#32⟩,
    ⟨"GF.LOG", 0x17000000#32, 0xFF00FFFF#32⟩,
    ⟨"GF.EXP", 0x18000000#32, 0xFF00FFFF#32⟩,
    ⟨"GF.MULLOG", 0x19000000#32, 0xFF000FFF#32⟩,
    ⟨"GF.DIVLOG", 0x1A000000#32, 0xFF000FFF#32⟩,
    ⟨"P.SETORD", 0x20000000#32, 0xFF0F0000#32⟩,
    ⟨"P.GETORD", 0x21000000#32, 0xFF00FFFF#32⟩,
    ⟨"P.LDC", 0x22000000#32, 0xFF000FFF#32⟩,
    ⟨"P.STC", 0x23000000#32, 0xFF000FFF#32⟩,
    ⟨"P.CLR", 0x24000000#32, 0xFF0FFFFF#32⟩,
    ⟨"P.MOV", 0x25000000#32, 0xFF00FFFF#32⟩,
    ⟨"P.MUL", 0x26000000#32, 0xFF000FFF#32⟩,
    ⟨"P.MOD", 0x27000000#32, 0xFF000FFF#32⟩,
    ⟨"P.DER", 0x28000000#32, 0xFF00FFFF#32⟩,
    ⟨"P.EVAL", 0x29000000#32, 0xFF000FFF#32⟩
  ] ++ [
    ⟨"P.POWS", 0x2A000000#32, 0xFF00FFFF#32⟩,
    ⟨"P.EVALP", 0x2B000000#32, 0xFF000FFF#32⟩,
    ⟨"P.TOLOG", 0x2C000000#32, 0xFF00FFFF#32⟩,
    ⟨"P.EVALL", 0x2D000000#32, 0xFF000FFF#32⟩,
    ⟨"P.ROOTS", 0x2E000000#32, 0xFF00FFFF#32⟩,
    ⟨"P.LDCI", 0x2F000000#32, 0xFF0F0000#32⟩,
    ⟨"BM.HARD", 0x30000000#32, 0xFF000FFF#32⟩,
    ⟨"BM.SOFTL", 0x31000000#32, 0xFF00FFFF#32⟩,
    ⟨"BM.SOFTQ", 0x32000000#32, 0xFF00FFFF#32⟩,
    ⟨"BM.SYM", 0x33000000#32, 0xFF00FFFF#32⟩,
    ⟨"BM.SYMI", 0x34000000#32, 0xFF0F0000#32⟩,
    ⟨"VT.CFG", 0x40000000#32, 0xFFF00FFF#32⟩,
    ⟨"VT.INIT", 0x41000000#32, 0xFFFFFFFF#32⟩,
    ⟨"VT.RESET", 0x42000000#32, 0xFFF0FFFF#32⟩,
    ⟨"VT.STEPH", 0x43000000#32, 0xFFF0FFFF#32⟩,
    ⟨"VT.STEPS", 0x44000000#32, 0xFFFFFFFF#32⟩,
    ⟨"VT.FLUSH", 0x45000000#32, 0xFFFFFFFF#32⟩,
    ⟨"VT.MODE", 0x46000000#32, 0xFFFF0000#32⟩,
    ⟨"ENC.RST", 0x47000000#32, 0xFFFFFFFF#32⟩,
    ⟨"ENC.BIT", 0x48000000#32, 0xFF00FFFF#32⟩,
    ⟨"VT.QLEN", 0x49000000#32, 0xFF0FFFFF#32⟩,
    ⟨"VT.RDQ", 0x4A000000#32, 0xFF00FFFF#32⟩,
    ⟨"VT.TAB", 0x4B000000#32, 0xFF00FFFF#32⟩,
    ⟨"VT.PM", 0x4C000000#32, 0xFF00FFFF#32⟩,
    ⟨"VT.POLY", 0x4D000000#32, 0xFF00FFFF#32⟩
  ]

/-- The word is of this row. -/
def OpcodeRow.covers (r : OpcodeRow) (w : Word) : Prop := w &&& r.mask = r.pattern

/-! ## The host's numbering of a table word -/

/-- The instruction the decoder reads from a word whose low `nbits` bits are `w` and whose other bits
are 0. A command is one 32-bit word and a command word is a number, not bytes (R51, R70), so there is
no byte order to apply; a word longer than 32 bits is no command. -/
def decodeTableWord (nbits w : Nat) : Option Instr :=
  if nbits ≤ 32 then decode (BitVec.ofNat 32 (w % 2 ^ nbits)) else none

end Sys2Proof
end

