-- ==== Sys2Proof/Config.lean ====
section
/-! DEFINITION. The parameters of `00_scope.md` R6 that are the spec's named choices, and the values
the spec leaves free (`93_implementation_defined.md` U1). -/

namespace Sys2Proof

namespace Config

/-- The least number of output symbols per input bit (R6, fixed by the source). -/
def rateMin : Nat := 2

/-- The greatest number of output symbols per input bit (R6, decision D19). -/
def rateMax : Nat := 8

/-- The least shift-register length (R6, decision D19). -/
def orderMin : Nat := 2

/-- The greatest shift-register length (R6, decision D19). -/
def orderMax : Nat := 16

/-- `TBMIN` is this many times `ORDER` (R6, R173). -/
def tracebackFactor : Nat := 5

/-- `TBBURST` is this many times `ORDER` (R6, R173). -/
def burstFactor : Nat := 15

/-- `GFPOW_ZERO_BASE_RESULT` of U4: what `GF.POW` gives for base 0 and every exponent. The meaning
does not store it: it is what R99's datapath reads from `EXP[0]` (log entry 12). -/
def gfPowZeroBase : Byte := 1

/-- The pieces of state whose value after a reset the spec leaves unspecified (R34, U1). -/
inductive ResetItem where
  | scalar (i : Nat)
  | polyOrd (i : Nat)
  | polyCoef (i k : Nat)
  | scratchOrd (i : Nat)
  | scratchCoef (i k : Nat)
  | prim
  | exp (k : Nat)
  | log (k : Nat)
deriving DecidableEq, Repr

/-- FREE VALUE (U1, log entry 5): what the item holds, as a value of `w` bits, after the reset event
number `draw`. It has no body: nothing can be proved of it. -/
opaque unspecified (draw : Nat) (item : ResetItem) (w : Nat) : BitVec w

end Config

end Sys2Proof
end

