-- ==== Sys2Proof/Machine/State.lean ====
section
/-! DEFINITION. The architectural state of `10_state.md`, the reasons a step can stop, and the state
after reset (R34, R290). Every field names the rule that gives it. Two fields are the model's own:
`host`, the events the host has yet to present, and `draws`, which numbers the free values. -/

namespace Sys2Proof.Machine

open Sys2Proof

/-- Why a command faults: the cause names of R261. The codes are `Cause.code`. -/
inductive Cause where
  /-- the word matches no row of the opcode table -/
  | illegalCommand
  /-- the divisor of `GF.DIV`, or the leading coefficient of the divisor of `P.MOD`, is 0 -/
  | divideByZero
  /-- the operand of `GF.BUILD` is not a polynomial under which `0x02` has order 255 -/
  | primitivePoly
  /-- the rate operand of `VT.CFG` is outside 2..8 -/
  | rate
  /-- the order operand of `VT.CFG` is outside 2..16 -/
  | order
  /-- an order precondition of `P.MOD`, `P.EVALP`, `P.EVALL` or `P.ROOTS` fails -/
  | capacity
  /-- a scalar operand, literal index or immediate is outside its range -/
  | operandRange
  /-- the block is not in the lifecycle state the command needs -/
  | sequence
  /-- the destination polynomial register is a source that the command forbids -/
  | aliased
  /-- `VT.RESET` with fewer than `2 × ORDER − 2` slices -/
  | length
deriving DecidableEq, Repr

/-- The lifecycle state `VSTATE` (R36); it takes three values, 3 never occurs (U14). -/
inductive VState where
  | unconf
  | configured
  | ready
deriving DecidableEq, Repr

/-- What the host does between commands that can change the block: it presents a command word (R10),
or the block is reset (R290; a reset happens only between commands). -/
inductive HostEvent where
  | command (w : Word)
  | reset
deriving DecidableEq, Repr

/-- A polynomial register (R13): an order and 256 coefficients, `c` entry `k` that of `x^k`. -/
structure PolyReg where
  ord : Byte
  c : Mem Byte 256
deriving DecidableEq, Repr

/-- The field tables (R18): `EXP[0..511]` and `LOG[0..255]`. -/
structure Tables where
  exp : Mem Byte 512
  log : Mem Byte 256
deriving DecidableEq, Repr

structure State where
  /-- `x[0..15]`, 32 bits each (R11). -/
  x : Mem Word 16
  /-- `P[0..15]` (R13). -/
  p : Mem PolyReg 16
  /-- `FAULT`, 1 bit (R15): the fault latch is set. -/
  fault : Bool
  /-- `OVF`, 1 bit, sticky (R15): a path-metric addition wrapped. -/
  ovf : Bool
  /-- `CAUSE`, 8 bits (R17): the code of the latched fault. -/
  cause : BitVec 8
  /-- `EINFO`, 32 bits (R17): the command word that faulted. -/
  einfo : Word
  /-- `FVALID`, 1 bit (R18): `GF.BUILD` has succeeded. -/
  fvalid : Bool
  /-- `PRIM`, 9 bits (R18). -/
  prim : BitVec 9
  /-- `EXP` and `LOG` (R18). -/
  tab : Tables
  /-- `VSTATE`, 2 bits (R19, R36). -/
  vstate : VState
  /-- `RATE`, 4 bits (R19). -/
  rate : BitVec 4
  /-- `ORDER`, 5 bits (R19). -/
  order : BitVec 5
  /-- `POLY[0..7]`, 32 bits each (R19). -/
  poly : Mem Word 8
  /-- `SOFTMODE`, 1 bit (R19): `true` is 1, the quadratic soft distance. -/
  softmode : Bool
  /-- `SYM[0..7]`, 8 bits each (R24). -/
  sym : Mem Byte 8
  /-- `OUTTAB[0..2^ORDER − 1]`, `RATE` bits each, held in 8 (R20); no extent before `VT.CFG`. -/
  outtab : List Byte
  /-- `TBMIN`, 16 bits (R21). -/
  tbmin : BitVec 16
  /-- `TBBURST`, 16 bits (R21). -/
  tbburst : BitVec 16
  /-- `CAP`, 16 bits (R21). -/
  cap : BitVec 16
  /-- `RINT`, 16 bits (R21). -/
  rint : BitVec 16
  /-- `PM[0][0..2^ORDER − 1]`, 16 bits each (R22); no extent before `VT.INIT`. -/
  pm0 : List Metric
  /-- `PM[1][0..2^ORDER − 1]`, 16 bits each (R22); no extent before `VT.INIT`. -/
  pm1 : List Metric
  /-- `PMSEL`, 1 bit (R22): the read bank is `PM[PMSEL]`. -/
  pmsel : Bool
  /-- `DIST[0..2^RATE − 1]`, 16 bits each (R23); no extent before `VT.INIT`. -/
  dist : List Metric
  /-- `HIST[0..CAP − 1][0..2^(ORDER−1) − 1]`, 1 bit each (R25); no extent before `VT.INIT`. -/
  hist : List (List Bool)
  /-- `HIDX`, 16 bits (R25). -/
  hidx : BitVec 16
  /-- `HLEN`, 16 bits (R25). -/
  hlen : BitVec 16
  /-- `RCNT`, 16 bits (R25). -/
  rcnt : BitVec 16
  /-- `SLICE`, 32 bits (R26). -/
  slice : BitVec 32
  /-- `SETS`, 32 bits (R26). -/
  sets : BitVec 32
  /-- `OUTQ`, oldest bit first (R27); `OUTCNT` is its length (R35). -/
  outq : List Bool
  /-- `ESR`, `ORDER` bits, held in 16 (R28). -/
  esr : BitVec 16
  /-- `SCR[0]` (R32). -/
  scr0 : PolyReg
  /-- `SCR[1]` (R32). -/
  scr1 : PolyReg
  /-- `RSEL`, 1 bit (R32). -/
  rsel : Bool
  /-- THE MODEL'S OWN (log entry 4): the events the host has yet to present, the next one first. A
  program is host state, not block state (R14); this list stands for it. -/
  host : List HostEvent
  /-- THE MODEL'S OWN (log entries 5 and 6): how many times free values have been drawn. -/
  draws : Nat
deriving DecidableEq, Repr

/-- Reasons for which a step would stop the machine with a fault. There is NONE: a fault of the block
sets the fault latch and the machine goes on (R260, R262), so no step ends here (safe: the type has no
value; log entry 14). -/
inductive Fault where
deriving DecidableEq, Repr

/-- Reasons for which the model gives no meaning. -/
inductive Refusal where
  /-- Raised only by an arm of `exec` whose instruction has no meaning yet (safe: the run stops). Every
  arm has one, so nothing raises it. -/
  | notModelled (mnemonic : String)
deriving DecidableEq, Repr

/-- What a step or a meaning answers. -/
abbrev Result := Host.Outcome State Fault Refusal

/-- A polynomial register with every bit 0. -/
def PolyReg.zero : PolyReg := { ord := 0, c := Mem.fill 256 0 }

/-- The state after reset (R34, R290). Where R34 says "unspecified" (`x`, `P`, `SCR`, `PRIM`, `EXP`,
`LOG`) the value is 0, DESIGN CHOICE of log entries 1 and 2; where it says the buffers have no extent
they are empty (log entry 3). The host has presented nothing (log entry 4). -/
def State.reset : State where
  x := Mem.fill 16 0
  p := Mem.fill 16 PolyReg.zero
  fault := false
  ovf := false
  cause := 0
  einfo := 0
  fvalid := false
  prim := 0
  tab := { exp := Mem.fill 512 0, log := Mem.fill 256 0 }
  vstate := .unconf
  rate := 0
  order := 0
  poly := Mem.fill 8 0
  softmode := false
  sym := Mem.fill 8 0
  outtab := []
  tbmin := 0
  tbburst := 0
  cap := 0
  rint := 0
  pm0 := []
  pm1 := []
  pmsel := false
  dist := []
  hist := []
  hidx := 0
  hlen := 0
  rcnt := 0
  slice := 0
  sets := 0
  outq := []
  esr := 0
  scr0 := PolyReg.zero
  scr1 := PolyReg.zero
  rsel := false
  host := []
  draws := 0

end Sys2Proof.Machine
end

