-- ==== Sys2Proof/Machine/Ops.lean ====
section
/-! DEFINITION. The operations every command shares: reading and writing the register files, setting
and clearing the fault latch (`60_exceptions.md` R261 to R264, R267), and running a command whose
faults are checked in order before it writes anything (R260, R264). -/

namespace Sys2Proof.Machine

open Sys2Proof

/-! ## The register files -/

/-- `x[i]` (R11). No scalar register is hard-wired. -/
def State.getX (s : State) (i : XReg) : Word := s.x.get i

/-- `x[d] <- v` (R12). -/
def State.setX (s : State) (d : XReg) (v : Word) : State := { s with x := s.x.write d v }

/-- `P[i]` (R13). -/
def State.getP (s : State) (i : PReg) : PolyReg := s.p.get i

/-- `P[d] <- q`, the order and all 256 coefficients. -/
def State.setP (s : State) (d : PReg) (q : PolyReg) : State := { s with p := s.p.write d q }

/-! ## The fault latch -/

/-- The cause code of each fault (R261); 0 is no fault and codes 11 to 255 are never produced. -/
def Cause.code : Cause → BitVec 8
  | .illegalCommand => 1
  | .divideByZero => 2
  | .primitivePoly => 3
  | .rate => 4
  | .order => 5
  | .capacity => 6
  | .operandRange => 7
  | .sequence => 8
  | .aliased => 9
  | .length => 10

/-- TAKING A FAULT (R262): `FAULT`, `CAUSE` and `EINFO` are written, and nothing else. `w` is the
command word that faulted. -/
def State.latch (s : State) (c : Cause) (w : Word) : State :=
  { s with fault := true, cause := c.code, einfo := w }

/-- RETURNING FROM A FAULT (R214, R267): the latch is cleared, and nothing else changes; with no fault
latched, nothing at all. -/
def State.clearLatch (s : State) : State :=
  if s.fault then { s with fault := false, cause := 0, einfo := 0 } else s

/-! ## Running a command -/

/-- A condition under which a command faults, and the cause it then reports. -/
abbrev Check := Bool × Cause

/-- The command raises `c` when `p` holds. -/
def raises (c : Cause) (p : Prop) [Decidable p] : Check := (decide p, c)

/-- The cause of the first condition that holds (R264: one command reports one fault). -/
def firstCause : List Check → Option Cause
  | [] => none
  | (holds, c) :: rest => if holds then some c else firstCause rest

/-- Run the command `i`: its conditions are examined in the order given, before any state is written;
the first that holds is latched, with the command's own word as `EINFO`; if none holds the command
has its effect (R260, R262, R264). -/
def attempt (i : Instr) (s : State) (checks : List Check) (effect : State → State) : Result :=
  match firstCause checks with
  | some c => .next (s.latch c (encode i))
  | none => .next (effect s)

end Sys2Proof.Machine
end

