-- ==== Sys2Proof/Machine/Operands.lean ====
section
/-! DEFINITION. How a command reads its operands: the ranges of `30_encoding.md` R73, R74 and
`60_exceptions.md` R265, the extension of results to 32 bits, and the coefficients of a polynomial
register. -/

namespace Sys2Proof.Machine

open Sys2Proof

/-- A scalar operand that is not an element, a logarithm, a coefficient index or a soft symbol: above
255 (R111, R124). The upper 24 bits are never ignored. -/
abbrev notByte (v : Word) : Prop := 255 < v.toNat

/-- A literal index above 7 (R74: `BM.SYM`, `BM.SYMI`, `VT.POLY`). -/
abbrev notIndex8 (j : Nat) : Prop := 7 < j

/-- The scalar operand `x[a]` as an 8-bit value, once it is known to be at most 255. -/
def State.byteX (s : State) (a : XReg) : Byte := (s.getX a).setWidth 8

/-- `x[d] <- v`, zero-extended to 32 bits (R111). -/
def State.setXByte (s : State) (d : XReg) (v : Byte) : State := s.setX d (v.setWidth 32)

/-- `sext_32(imm16)` (R73, `LI`). -/
def sext32 (imm : BitVec 16) : Word := imm.signExtend 32

/-- `(imm16 << 16) or x[15:0]` (R212, `LIH`). -/
def upperHalf (imm : BitVec 16) (old : Word) : Word :=
  (imm.setWidth 32 <<< 16) ||| (old &&& 0xFFFF#32)

/-- The order of a polynomial register as a number 0..255. -/
def PolyReg.deg (q : PolyReg) : Nat := q.ord.toNat

/-- Coefficient `k` (R13). -/
def PolyReg.coef (q : PolyReg) (k : Nat) : Byte := q.c.read k

/-- The register with its order set and its coefficients kept (R122). -/
def PolyReg.withOrd (q : PolyReg) (n : Nat) : PolyReg := { q with ord := BitVec.ofNat 8 n }

/-- The register with coefficient `k` written (R124). -/
def PolyReg.withCoef (q : PolyReg) (k : Nat) (v : Byte) : PolyReg := { q with c := q.c.write k v }

/-- The register with `c[k] <- f k` for `k` in 0..n, every other coefficient and the order kept. -/
def PolyReg.withCoefs (q : PolyReg) (n : Nat) (f : Nat → Byte) : PolyReg :=
  { q with c := q.c.update fun k old => if k ≤ n then f k else old }

/-- One of two things by a 1-bit selector: the first for 0, the second for 1 (`PMSEL`, `RSEL`). -/
def pick {α : Type} (sel : Bool) (zero one : α) : α := if sel then one else zero

end Sys2Proof.Machine
end

