-- ==== Sys2Proof/Machine/Flags.lean ====
section
/-! DEFINITION. The two flags, `FAULT` (set and cleared in `Ops`) and `OVF` (R15, R166), and the
status word assembled from the state (R16). -/

namespace Sys2Proof.Machine

open Sys2Proof

/-- `add16` of R166: the sum of a branch distance and a path metric, modulo 2^16. -/
def add16 (a b : Metric) : Metric := a + b

/-- The sum of R166 is above 65535: `OVF` is set. -/
def add16Overflows (a b : Metric) : Bool := decide (65535 < a.toNat + b.toNat)

/-- The number of `VSTATE` in `STATUS` (R16, R36). -/
def VState.number : VState → BitVec 2
  | .unconf => 0
  | .configured => 1
  | .ready => 2

/-- A flag as one bit. -/
def bit1 (b : Bool) : BitVec 1 := BitVec.ofBool b

/-- `STATUS` (R16): bits 31:16 zero, `CAUSE` in 15:8, `PMSEL` 7, `RSEL` 6, `SOFTMODE` 5, `VSTATE` 4:3,
`FVALID` 2, `OVF` 1, `FAULT` 0. -/
def State.status (s : State) : Word :=
  0#16 ++ s.cause ++ bit1 s.pmsel ++ bit1 s.rsel ++ bit1 s.softmode ++ s.vstate.number
    ++ bit1 s.fvalid ++ bit1 s.ovf ++ bit1 s.fault

end Sys2Proof.Machine
end

