-- ==== Sys2Proof/Machine/BranchMetric.lean ====
section
/-! DEFINITION. The branch-metric unit (`42_branch_metric.md` R150 to R157): the three distances, the
distance table of a slice, and its five commands. -/

namespace Sys2Proof.Machine

open Sys2Proof

/-! ## The distances (R150, R151, R157) -/

/-- The number of 1 bits of a 32-bit value (`00_scope.md` §5). -/
def popcount (v : Word) : Nat := (List.range 32).countP fun k => v.getLsbD k

/-- The number of possible output symbols, `2^RATE`. -/
def State.symbolCount (s : State) : Nat := 2 ^ s.rate.toNat

/-- `hamming(o, r)` (R151). -/
def hamming (o : Nat) (r : Word) : Metric := BitVec.ofNat 16 (popcount (BitVec.ofNat 32 o ^^^ r))

/-- The ideal soft value of tap `j` for the candidate output symbol `o` (R150). -/
def idealSoft (o j : Nat) : Int := if o.testBit j then 255 else 0

/-- `SYM[j] − ideal(o, j)`, a signed integer in −255..255 (R151). -/
def softDifference (sym : Mem Byte 8) (o j : Nat) : Int := (sym.read j).toNat - idealSoft o j

/-- `soft_lin(o)` (R151): the sum of absolute differences over the taps, modulo 2^16. -/
def softLin (sym : Mem Byte 8) (rate o : Nat) : Metric :=
  BitVec.ofNat 16 ((List.range rate).map fun j => (softDifference sym o j).natAbs).sum

/-- `soft_quad(o)` (R151): the exact sum of squares, shifted right once by 3, modulo 2^16. -/
def softQuad (sym : Mem Byte 8) (rate o : Nat) : Metric :=
  BitVec.ofNat 16
    (((List.range rate).map fun j => (softDifference sym o j).natAbs ^ 2).sum >>> 3)

/-- The distance table that `VT.STEPH` sets for the hard symbol `r` (R157). -/
def State.hardDistances (s : State) (r : Word) : List Metric :=
  (List.range s.symbolCount).map fun o => hamming o r

/-- The distance table that `VT.STEPS` sets from `SYM`, by `SOFTMODE` (R157). -/
def State.softDistances (s : State) : List Metric :=
  (List.range s.symbolCount).map fun o =>
    if s.softmode then softQuad s.sym s.rate.toNat o else softLin s.sym s.rate.toNat o

/-! ## The commands (R152 to R156) -/

/-- No code is configured (R153, R188, R201, R202, R173). -/
def noCode (s : State) : Check := raises .sequence (s.vstate = .unconf)

/-- `BM.HARD xd, xa, xb` (R152): over all 32 bits of both registers. -/
def execBmHard (d a b : XReg) (s : State) : Result :=
  attempt (.bmHard d a b) s [] fun s =>
    s.setX d (BitVec.ofNat 32 (popcount (s.getX a ^^^ s.getX b)))

/-- `BM.SOFTL xd, xa` (R153). -/
def execBmSoftl (d a : XReg) (s : State) : Result :=
  attempt (.bmSoftl d a) s [noCode s, raises .operandRange (s.symbolCount ≤ (s.getX a).toNat)]
    fun s => s.setX d ((softLin s.sym s.rate.toNat (s.getX a).toNat).setWidth 32)

/-- `BM.SOFTQ xd, xa` (R154). Neither command reads `SOFTMODE`. -/
def execBmSoftq (d a : XReg) (s : State) : Result :=
  attempt (.bmSoftq d a) s [noCode s, raises .operandRange (s.symbolCount ≤ (s.getX a).toNat)]
    fun s => s.setX d ((softQuad s.sym s.rate.toNat (s.getX a).toNat).setWidth 32)

/-- `BM.SYM j, xa` (R155): works in every `VSTATE`. -/
def execBmSym (j : Nat) (a : XReg) (s : State) : Result :=
  attempt (.bmSym j a) s
    [raises .operandRange (notIndex8 j), raises .operandRange (notByte (s.getX a))] fun s =>
    { s with sym := s.sym.write j (s.byteX a) }

/-- `BM.SYMI j, imm` (R156). -/
def execBmSymi (j n : Nat) (s : State) : Result :=
  attempt (.bmSymi j n) s [raises .operandRange (notIndex8 j ∨ 255 < n)] fun s =>
    { s with sym := s.sym.write j (BitVec.ofNat 8 n) }

end Sys2Proof.Machine
end

