-- ==== Sys2Proof/Machine/TrellisOps.lean ====
section
/-! DEFINITION. One slice of the trellis and the history behind it (`43_viterbi.md` R161 to R169,
R177 to R179). Trellis states, register values and ring slots are numbers; the banks, the distance
table and the ring are read by index and are never read outside their extent in a state that
satisfies `State.Inv` (log entry 10). -/

namespace Sys2Proof.Machine

open Sys2Proof

/-! ## The trellis (R161, R162) -/

/-- The number of register values, `2^ORDER`. -/
def State.registerCount (s : State) : Nat := 2 ^ s.order.toNat

/-- The number of trellis states, `H = 2^(ORDER−1)` (R161). -/
def State.stateCount (s : State) : Nat := 2 ^ (s.order.toNat - 1)

/-- The read bank `PM[PMSEL]` (R22). -/
def State.readBank (s : State) : List Metric := pick s.pmsel s.pm0 s.pm1

/-- The write bank `PM[1 − PMSEL]` (R22). -/
def State.writeBank (s : State) : List Metric := pick s.pmsel s.pm1 s.pm0

/-- The write bank replaced. -/
def State.setWriteBank (s : State) (w : List Metric) : State :=
  if s.pmsel then { s with pm0 := w } else { s with pm1 := w }

/-- The phase of a slice (R162). The tail carries its `skip`. -/
inductive Phase where
  | warmUp
  | inner
  | tail (skip : Nat)
deriving DecidableEq, Repr

/-- The phase of the slice `SLICE` (R162). Where `SETS < 2 × ORDER − 2`, which `VT.RESET` refuses, the
conditions of R162 overlap and the first that holds is taken (log entry 15). -/
def State.phase (s : State) : Phase :=
  let i := s.slice.toNat
  let n := s.order.toNat
  if i + 2 ≤ n then .warmUp
  else if i + n ≤ s.sets.toNat then .inner
  else .tail (2 ^ (n - (s.sets.toNat - i)))

/-- The step between the states that a phase writes: 1 except in the tail (R162). -/
def Phase.skip : Phase → Nat
  | .warmUp => 1
  | .inner => 1
  | .tail skip => skip

/-- `DIST[OUTTAB[v]]`: the branch distance of the register value `v` (R161, R165). -/
def State.branch (s : State) (v : Nat) : Metric := s.dist.getD (s.outtab.getD v 0).toNat 0

/-- A list with the entries at the indices that `active` selects replaced. -/
def replaceAt {α : Type} (l : List α) (active : Nat → Bool) (f : Nat → α) : List α :=
  l.zipIdx.map fun e => if active e.2 then f e.2 else e.1

/-! ## Warm-up (R164) -/

/-- `W[j]` of R164. -/
def State.warmMetric (s : State) (j : Nat) : Metric :=
  add16 (s.branch j) (s.readBank.getD (j / 2) 0)

/-- The addition for `j` in R164 wraps. -/
def State.warmOverflows (s : State) (j : Nat) : Bool :=
  add16Overflows (s.branch j) (s.readBank.getD (j / 2) 0)

/-- The number of register values that a warm-up slice writes, `2^(i+1)` (R162). -/
def State.warmCount (s : State) : Nat := 2 ^ (s.slice.toNat + 1)

/-- The warm-up slice (R164), after `DIST` has been set: path metrics, no comparison, no history. -/
def State.warmUpSlice (s : State) : State :=
  let n := s.warmCount
  let t := s.setWriteBank (replaceAt s.writeBank (fun j => decide (j < n)) s.warmMetric)
  { t with ovf := s.ovf || (List.range n).any s.warmOverflows }

/-! ## Add-compare-select (R165) -/

/-- The state `st` is one that the slice writes: `for s in 0..H−1 step skip`. -/
def State.active (s : State) (skip st : Nat) : Bool :=
  decide (st < s.stateCount) && st % skip == 0

/-- `e0` of R165: through the predecessor `st >> 1`, register value `st`. -/
def State.candidate0 (s : State) (st : Nat) : Metric :=
  add16 (s.branch st) (s.readBank.getD (st / 2) 0)

/-- `e1` of R165: through the predecessor `(st >> 1) + H/2`, register value `st + H`. -/
def State.candidate1 (s : State) (st : Nat) : Metric :=
  add16 (s.branch (st + s.stateCount)) (s.readBank.getD (st / 2 + s.stateCount / 2) 0)

/-- One of the two additions for `st` wraps (R166). -/
def State.candidateOverflows (s : State) (st : Nat) : Bool :=
  add16Overflows (s.branch st) (s.readBank.getD (st / 2) 0)
    || add16Overflows (s.branch (st + s.stateCount))
      (s.readBank.getD (st / 2 + s.stateCount / 2) 0)

/-- The survivor bit of `st` (R165): 1 only where `e1` is strictly less; on equality predecessor 0
wins. -/
def State.survivor (s : State) (st : Nat) : Bool :=
  !decide ((s.candidate0 st).toNat ≤ (s.candidate1 st).toNat)

/-- The metric of the surviving candidate (R165). -/
def State.survivorMetric (s : State) (st : Nat) : Metric :=
  pick (s.survivor st) (s.candidate0 st) (s.candidate1 st)

/-- The add-compare-select of an inner or tail slice (R165): the write bank and the slot
`HIST[HIDX]` at the active states; other entries keep their values. -/
def State.acsSlice (s : State) (skip : Nat) : State :=
  let t := s.setWriteBank (replaceAt s.writeBank (s.active skip) s.survivorMetric)
  let slot := replaceAt (s.hist.getD s.hidx.toNat []) (s.active skip) s.survivor
  { t with
    hist := s.hist.set s.hidx.toNat slot
    ovf := s.ovf || (List.range s.stateCount).any fun st =>
      s.active skip st && s.candidateOverflows st }

/-! ## History processing (R168, R169, R177, R178) -/

/-- `search(W, skip)` of R169: strict comparison from 65535, so the lowest-numbered state among equals
wins and state 0 is the default. -/
def State.search (s : State) (skip : Nat) : Nat :=
  ((List.range s.stateCount).foldl (fun (acc : Nat × Nat) st =>
    if s.active skip st && decide ((s.writeBank.getD st 0).toNat < acc.2)
    then (st, (s.writeBank.getD st 0).toNat) else acc) (0, 65535)).1

/-- `renormalise(W, b)` of R177: `W[b]` is subtracted from every trellis state, modulo 2^16. -/
def State.renormalise (s : State) (b : Nat) : State :=
  let m := s.writeBank.getD b 0
  s.setWriteBank (replaceAt s.writeBank (fun st => decide (st < s.stateCount)) fun st =>
    s.writeBank.getD st 0 - m)

/-- The ring slot before `idx`: `(idx − 1) mod CAP` (R178). -/
def State.slotBefore (s : State) (idx : Nat) : Nat := (idx + s.cap.toNat - 1) % s.cap.toNat

/-- `HIST[idx][st]`. -/
def State.histBit (s : State) (idx st : Nat) : Bool := (s.hist.getD idx []).getD st false

/-- The predecessor that the survivor bit `h` of `st` names: `(s or (h << (ORDER−1))) >> 1` (R178). -/
def State.predecessor (s : State) (st : Nat) (h : Bool) : Nat :=
  (st ||| (h.toNat <<< (s.order.toNat - 1))) >>> 1

/-- The survivor bits on the path back from state `st`, newest first, `n` slots of the ring beginning
with the one before `idx` (R178). -/
def State.pathBits (s : State) : (n idx st : Nat) → List Bool
  | 0, _, _ => []
  | n + 1, idx, st =>
    let idx' := s.slotBefore idx
    let h := s.histBit idx' st
    h :: s.pathBits n idx' (s.predecessor st h)

/-- `traceback(b, mind)` of R178: the path is walked over all `HLEN` slots, the bits after the first
`mind` steps are emitted, oldest first, and leave the ring. `HIDX` does not move. -/
def State.traceback (s : State) (b mind : Nat) : State :=
  let emitted := (s.pathBits s.hlen.toNat s.hidx.toNat b).drop mind
  { s with
    outq := s.outq ++ emitted.reverse
    hlen := s.hlen - BitVec.ofNat 16 emitted.length }

/-- The three counters at the start of R168. -/
def State.countSlice (s : State) : State :=
  { s with
    hidx := BitVec.ofNat 16 ((s.hidx.toNat + 1) % s.cap.toNat)
    rcnt := s.rcnt + 1
    hlen := s.hlen + 1 }

/-- History processing (R168), once at the end of an inner or tail slice. The write bank is still the
one that the slice wrote. -/
def State.history (s : State) (skip : Nat) : State :=
  let t := s.countSlice
  if t.rcnt = t.rint then
    let b := t.search skip
    let u : State := { t.renormalise b with rcnt := 0 }
    if u.hlen = u.cap then u.traceback b u.tbmin.toNat else u
  else if t.hlen = t.cap then t.traceback (t.search skip) t.tbmin.toNat
  else t

/-! ## The whole slice (R175, R176, R179) -/

/-- The end of every step (R179). -/
def State.endSlice (s : State) : State := { s with pmsel := !s.pmsel, slice := s.slice + 1 }

/-- A slice after `DIST` has been set, by its phase (R162). -/
def State.slicePhase (s : State) : State :=
  match s.phase with
  | .warmUp => s.warmUpSlice
  | .inner => (s.acsSlice 1).history 1
  | .tail skip => (s.acsSlice skip).history skip

/-- One trellis step with the distance table `dist` (R175, R176). -/
def State.trellisStep (s : State) (dist : List Metric) : State :=
  ({ s with dist := dist }).slicePhase.endSlice

end Sys2Proof.Machine
end

