-- ==== Sys2Proof/Machine/Encoder.lean ====
section
/-! DEFINITION. The convolutional encoder step (`44_conv_encoder.md` R200 to R202). -/

namespace Sys2Proof.Machine

open Sys2Proof

/-- The shift register after the input bit `bit`: `((ESR << 1) or bit) and (2^ORDER − 1)` (R202). -/
def State.shiftedEsr (s : State) (bit : Word) : BitVec 16 :=
  BitVec.ofNat 16 ((s.esr.toNat <<< 1 ||| bit.toNat) &&& (s.registerCount - 1))

/-- `ENC.RST` (R201). -/
def execEncRst (s : State) : Result :=
  attempt .encRst s [noCode s] fun s => { s with esr := 0 }

/-- `ENC.BIT xd, xa` (R202): the symbol is that of the new register value. -/
def execEncBit (d a : XReg) (s : State) : Result :=
  attempt (.encBit d a) s [noCode s, raises .operandRange (1 < (s.getX a).toNat)] fun s =>
    let esr := s.shiftedEsr (s.getX a)
    ({ s with esr := esr }).setXByte d (s.outtab.getD esr.toNat 0)

end Sys2Proof.Machine
end

