-- ==== Sys2Proof/Machine/FieldOps.lean ====
section
/-! DEFINITION. The tables of GF(2^8) and the pure functions of the field (`40_gf_field.md` R90 to
R100). They read the tables and write nothing. -/

namespace Sys2Proof.Machine

open Sys2Proof

/-! ## Building the tables (R91 to R95) -/

/-- One step of R91 and R94: `e << 1`, reduced by `prim` when that is above 255. -/
def xtime (prim : BitVec 9) (e : Byte) : Byte :=
  let e2 : BitVec 9 := e.setWidth 9 <<< 1
  if 255 < e2.toNat then (e2 ^^^ prim).setWidth 8 else e2.setWidth 8

/-- `e, xtime e, xtime (xtime e), …`, `n` of them. -/
def powersFrom (prim : BitVec 9) : Nat → Byte → List Byte
  | 0, _ => []
  | n + 1, e => e :: powersFrom prim n (xtime prim e)

/-- `powersFrom` lists as many elements as it is asked for. -/
theorem length_powersFrom (prim : BitVec 9) (n : Nat) (e : Byte) :
    (powersFrom prim n e).length = n := by
  induction n generalizing e with
  | zero => rfl
  | succ n ih => simp [powersFrom, ih]

/-- The candidate `EXP` of R94: `EXP[0] = 1`, `EXP[i] = xtime(EXP[i − 1])` (R91). -/
def buildExp (prim : BitVec 9) : Mem Byte 512 :=
  ⟨powersFrom prim 512 1, length_powersFrom prim 512 1⟩

/-- The candidate `LOG` of R94: `L[T[i]] <- i` for `i` in 1..255 in that order, then `L[0] <- 0`
(R92, R93). -/
def buildLog (t : Mem Byte 512) : Mem Byte 256 :=
  (forRange 1 255 (Mem.fill 256 0) fun l i => l.write (t.read i).toNat (BitVec.ofNat 8 i)).write 0 0

/-- Both tables of a primitive polynomial. -/
def buildTables (prim : BitVec 9) : Tables :=
  let t := buildExp prim
  { exp := t, log := buildLog t }

/-- `valid(T)` of R95: `0x02` has multiplicative order exactly 255, that is `T[255] = 1` and no
earlier power of 1..254 is 1. R95 gives this as equivalent to its first wording (log entry 11). -/
def validPowers (t : Mem Byte 512) : Bool :=
  ((List.range' 1 254).all fun i => (t.read i).toNat != 1) && (t.read 255).toNat == 1

/-- The operand of `GF.BUILD` is refused: outside 0x100..0x1FF, or alpha has not order 255
(R94, R95). -/
abbrev primRefused (v : Word) : Prop :=
  v.toNat < 0x100 ∨ 0x1FF < v.toNat ∨ validPowers (buildExp (v.setWidth 9)) = false

/-! ## The field functions (R96 to R100) -/

/-- `EXP[k]`. -/
def Tables.expAt (t : Tables) (k : Nat) : Byte := t.exp.read k

/-- `LOG[e]`. -/
def Tables.logAt (t : Tables) (e : Byte) : Byte := t.log.read e.toNat

/-- `gf_mul` (R96): the index is the sum of two logarithms, at most 510, taken without reduction. -/
def gfMul (t : Tables) (a b : Byte) : Byte :=
  if a = 0 ∨ b = 0 then 0 else t.expAt ((t.logAt a).toNat + (t.logAt b).toNat)

/-- `gf_div` for a non-zero divisor (R97); a zero divisor is the command's fault. -/
def gfDiv (t : Tables) (a b : Byte) : Byte :=
  if a = 0 then 0 else t.expAt (255 + (t.logAt a).toNat - (t.logAt b).toNat)

/-- `gf_sum` (R98): `a` added to itself `n` times. -/
def gfSum (a : Byte) (n : Nat) : Byte := if n % 2 = 1 then a else 0

/-- `gf_pow` (R99): the exact product `LOG[a] × n`, floor modulus 255. There is no test for base 0. -/
def gfPow (t : Tables) (a : Byte) (n : Int) : Byte :=
  t.expAt (((t.logAt a).toNat * n) % 255).toNat

/-- `mullog` (R100). -/
def mulLog (l r : Byte) : Byte :=
  let s := l.toNat + r.toNat
  BitVec.ofNat 8 (if 255 < s then s - 255 else s)

/-- `divlog` (R100). -/
def divLog (l r : Byte) : Byte :=
  let s := 255 + l.toNat - r.toNat
  BitVec.ofNat 8 (if 255 < s then s - 255 else s)

end Sys2Proof.Machine
end

