-- ==== Sys2Proof/Machine/FieldUnit.lean ====
section
/-! DEFINITION. The commands of the Galois field unit (`40_gf_field.md` R94, R101 to R111). The ten
scalar commands share R111's checks: the tables are built, each element or logarithm is at most 255,
then the faults that depend on values. -/

namespace Sys2Proof.Machine

open Sys2Proof

/-- The tables have not been built (R111, R120). -/
def noField (s : State) : Check := raises .sequence (s.fvalid = false)

/-- `x[a]` is not an element or a logarithm (R111). -/
def needByte (s : State) (a : XReg) : Check := raises .operandRange (notByte (s.getX a))

/-- `GF.BUILD xa` (R94). On a fault no table entry changes; it can succeed once between resets. -/
def execGfBuild (a : XReg) (s : State) : Result :=
  attempt (.gfBuild a) s
    [raises .sequence (s.fvalid = true),
     raises .primitivePoly (primRefused (s.getX a))]
    fun s =>
      let prim := (s.getX a).setWidth 9
      { s with tab := buildTables prim, prim := prim, fvalid := true }

/-- `GF.ADD xd, xa, xb` (R101). -/
def execGfAdd (d a b : XReg) (s : State) : Result :=
  attempt (.gfAdd d a b) s [noField s, needByte s a, needByte s b] fun s =>
    s.setXByte d (s.byteX a ^^^ s.byteX b)

/-- `GF.SUB xd, xa, xb` (R102). -/
def execGfSub (d a b : XReg) (s : State) : Result :=
  attempt (.gfSub d a b) s [noField s, needByte s a, needByte s b] fun s =>
    s.setXByte d (s.byteX a ^^^ s.byteX b)

/-- `GF.MUL xd, xa, xb` (R103). -/
def execGfMul (d a b : XReg) (s : State) : Result :=
  attempt (.gfMul d a b) s [noField s, needByte s a, needByte s b] fun s =>
    s.setXByte d (gfMul s.tab (s.byteX a) (s.byteX b))

/-- `GF.DIV xd, xa, xb` (R104): the divisor is tested also when the dividend is 0. -/
def execGfDiv (d a b : XReg) (s : State) : Result :=
  attempt (.gfDiv d a b) s
    [noField s, needByte s a, needByte s b, raises .divideByZero (s.getX b = 0)] fun s =>
    s.setXByte d (gfDiv s.tab (s.byteX a) (s.byteX b))

/-- `GF.SUM xd, xa, xb` (R105): the count is the full 32-bit value, no range check. -/
def execGfSum (d a b : XReg) (s : State) : Result :=
  attempt (.gfSum d a b) s [noField s, needByte s a] fun s =>
    s.setXByte d (gfSum (s.byteX a) (s.getX b).toNat)

/-- `GF.POW xd, xa, xb` (R106): the exponent is `s32(x[b])`, no range check. -/
def execGfPow (d a b : XReg) (s : State) : Result :=
  attempt (.gfPow d a b) s [noField s, needByte s a] fun s =>
    s.setXByte d (gfPow s.tab (s.byteX a) (s.getX b).toInt)

/-- `GF.LOG xd, xa` (R107). -/
def execGfLog (d a : XReg) (s : State) : Result :=
  attempt (.gfLog d a) s [noField s, needByte s a] fun s =>
    s.setXByte d (s.tab.logAt (s.byteX a))

/-- `GF.EXP xd, xa` (R108): the index must be at most 511. -/
def execGfExp (d a : XReg) (s : State) : Result :=
  attempt (.gfExp d a) s [noField s, raises .operandRange (511 < (s.getX a).toNat)] fun s =>
    s.setXByte d (s.tab.expAt (s.getX a).toNat)

/-- `GF.MULLOG xd, xa, xb` (R109): no zero test. -/
def execGfMullog (d a b : XReg) (s : State) : Result :=
  attempt (.gfMullog d a b) s [noField s, needByte s a, needByte s b] fun s =>
    s.setXByte d (mulLog (s.byteX a) (s.byteX b))

/-- `GF.DIVLOG xd, xa, xb` (R110): no zero test and no `DivideByZero`. -/
def execGfDivlog (d a b : XReg) (s : State) : Result :=
  attempt (.gfDivlog d a b) s [noField s, needByte s a, needByte s b] fun s =>
    s.setXByte d (divLog (s.byteX a) (s.byteX b))

end Sys2Proof.Machine
end

