-- ==== Sys2Proof/Machine/PolyOps.lean ====
section
/-! DEFINITION. The algorithms of the polynomial unit (`41_polynomial.md` R121, R128 to R137) on
polynomial registers, each the loop its rule writes. They read the field tables and change no state
by themselves. -/

namespace Sys2Proof.Machine

open Sys2Proof

/-- The truncated product of R128 into the register `dst` up to order `n`: coefficients 0..n are
cleared and then accumulated, coefficients above `n` and the order of `dst` are kept. -/
def polyMul (t : Tables) (l r : PolyReg) (n : Nat) (dst : PolyReg) : PolyReg :=
  let cleared := dst.withCoefs n fun _ => 0
  forUpTo l.deg cleared fun q i =>
    if i ≤ n then
      forUpTo (min r.deg (n - i)) q fun q j =>
        q.withCoef (i + j) (q.coef (i + j) ^^^ gfMul t (l.coef i) (r.coef j))
    else q

/-- One step of R129 at dividend index `i`: where the coefficient there is not 0, the divisor scaled
by the quotient coefficient is subtracted. `dl` is the logarithm of the divisor's leading
coefficient. -/
def polyModStep (t : Tables) (divisor : PolyReg) (dl : Byte) (rem : PolyReg) (i : Nat) : PolyReg :=
  if rem.coef i ≠ 0 then
    let m := divisor.deg
    let q := divLog (t.logAt (rem.coef i)) dl
    forUpTo m rem fun rem j =>
      if divisor.coef j ≠ 0 then
        rem.withCoef (j + i - m)
          (rem.coef (j + i - m) ^^^ t.expAt ((t.logAt (divisor.coef j)).toNat + q.toNat))
      else rem
  else rem

/-- `P.MOD` of R129 into the register `dst`: the dividend is copied to 0..its order, then the long
division runs from the dividend's order down to the divisor's, not at all where that is empty. -/
def polyMod (t : Tables) (dividend divisor dst : PolyReg) : PolyReg :=
  let m := divisor.deg
  let copied := dst.withCoefs dividend.deg dividend.coef
  let dl := t.logAt (divisor.coef m)
  (List.range' m (dividend.deg + 1 - m)).reverse.foldl (polyModStep t divisor dl) copied

/-- The formal derivative of R130 into the register `dst`; it sets the order. -/
def polyDer (src dst : PolyReg) : PolyReg :=
  if src.deg = 0 then (dst.withOrd 0).withCoefs 0 fun _ => 0
  else (dst.withOrd (src.deg - 1)).withCoefs (src.deg - 1) fun i =>
    gfSum (src.coef (i + 1)) (i + 1)

/-- The value of a polynomial at an element (R131): powers of the element accumulate in log form. -/
def polyEval (t : Tables) (q : PolyReg) (v : Byte) : Byte :=
  if v = 0 then q.coef 0
  else
    let l := t.logAt v
    (forUpTo q.deg (0, 255) fun (acc : Byte × Byte) i =>
      (if q.coef i ≠ 0 then acc.1 ^^^ t.expAt ((t.logAt (q.coef i)).toNat + acc.2.toNat) else acc.1,
       mulLog acc.2 l)).1

/-- The power table of the element `v` to order `dst.ord`, into `dst` (R121, R132). -/
def polyPows (t : Tables) (v : Byte) (dst : PolyReg) : PolyReg :=
  (forUpTo dst.deg (dst, 255) fun (acc : PolyReg × Byte) i =>
    if v = 0 then (acc.1.withCoef i 0, acc.2)
    else (acc.1.withCoef i acc.2, mulLog acc.2 (t.logAt v))).1

/-- The value of `q` at the element whose power table is `w` (R133). Whatever bytes `w` holds, every
index into `EXP` is at most 510 (U12). -/
def polyEvalPowers (t : Tables) (q w : PolyReg) : Byte :=
  if w.coef 0 = 0 then q.coef 0
  else forUpTo q.deg 0 fun r i =>
    if q.coef i ≠ 0 then r ^^^ t.expAt ((t.logAt (q.coef i)).toNat + (w.coef i).toNat) else r

/-- Conversion to log form (R134) into `dst`: all reads first, so `dst` may be `src`. -/
def polyToLog (t : Tables) (src dst : PolyReg) : PolyReg :=
  (dst.withOrd src.deg).withCoefs src.deg fun i => t.logAt (src.coef i)

/-- The value of the log-form polynomial `q` at the element whose power table is `w` (R135). -/
def polyEvalLog (t : Tables) (q w : PolyReg) : Byte :=
  if w.coef 0 = 0 then
    if q.coef 0 = 0 then 0 else t.expAt (q.coef 0).toNat
  else forUpTo q.deg 0 fun r i =>
    if q.coef i ≠ 0 then r ^^^ t.expAt ((q.coef i).toNat + (w.coef i).toNat) else r

/-! ## Construction from roots (R137) -/

/-- `SCR[0]`, `SCR[1]` and `sel` while R137 runs. -/
structure Scratch where
  buf0 : PolyReg
  buf1 : PolyReg
  sel : Bool
deriving DecidableEq, Repr

/-- `SCR[sel]`. -/
def Scratch.current (b : Scratch) : PolyReg := pick b.sel b.buf0 b.buf1

/-- `SCR[sel]` replaced. -/
def Scratch.put (b : Scratch) (q : PolyReg) : Scratch :=
  if b.sel then { b with buf1 := q } else { b with buf0 := q }

/-- The order-1 polynomial `x + root` of R137. -/
def linearFactor (root : Byte) : PolyReg :=
  ((PolyReg.zero.withOrd 1).withCoef 0 root).withCoef 1 1

/-- The first factor: `SCR[0].ord <- 1`, `SCR[0].c[1] <- 1`, `SCR[0].c[0] <- root`. -/
def rootsStart (root : Byte) (b : Scratch) : Scratch :=
  { b with sel := false, buf0 := ((b.buf0.withOrd 1).withCoef 1 1).withCoef 0 root }

/-- One further factor: the other buffer gets order `i + 1` and the product, to order `i + 1`, of the
factor and the buffer just filled. -/
def rootsStep (t : Tables) (roots : PolyReg) (b : Scratch) (i : Nat) : Scratch :=
  let next := { b with sel := !b.sel }
  next.put
    (polyMul t (linearFactor (roots.coef i)) b.current (i + 1) (next.current.withOrd (i + 1)))

/-- R137's loop over the `n = ord + 1` roots, left to right. -/
def rootsLoop (t : Tables) (roots : PolyReg) (b : Scratch) : Scratch :=
  forRange 1 roots.deg (rootsStart (roots.coef 0) b) (rootsStep t roots)

end Sys2Proof.Machine
end

