-- ==== Sys2Proof/Machine/PolyUnit.lean ====
section
/-! DEFINITION. The commands of the polynomial unit (`41_polynomial.md` R120 to R139). Their checks
come in R120's order: `Sequence` where the tables are read, `OperandRange`, `Alias`, `Capacity`,
`DivideByZero`. -/

namespace Sys2Proof.Machine

open Sys2Proof

/-- The destination is a source that the command forbids (R139). -/
def noAlias (d src : PReg) : Check := raises .aliased (d = src)

/-! ## Data movement (R122 to R127, R138) -/

/-- `P.SETORD Pd, imm` (R122). -/
def execPSetord (d : PReg) (n : Nat) (s : State) : Result :=
  attempt (.pSetord d n) s [raises .operandRange (255 < n)] fun s =>
    s.setP d ((s.getP d).withOrd n)

/-- `P.GETORD xd, Pa` (R123). -/
def execPGetord (d : XReg) (a : PReg) (s : State) : Result :=
  attempt (.pGetord d a) s [] fun s => s.setXByte d (s.getP a).ord

/-- `P.LDC Pd, xa, xb` (R124): the index is not compared with the order. -/
def execPLdc (d : PReg) (a b : XReg) (s : State) : Result :=
  attempt (.pLdc d a b) s [needByte s a, needByte s b] fun s =>
    s.setP d ((s.getP d).withCoef (s.getX a).toNat (s.byteX b))

/-- `P.STC xd, Pa, xb` (R125): the index is not compared with the order. -/
def execPStc (d : XReg) (a : PReg) (b : XReg) (s : State) : Result :=
  attempt (.pStc d a b) s [needByte s b] fun s =>
    s.setXByte d ((s.getP a).coef (s.getX b).toNat)

/-- `P.CLR Pd` (R126): all 256 coefficients, the order unchanged. -/
def execPClr (d : PReg) (s : State) : Result :=
  attempt (.pClr d) s [] fun s => s.setP d ((s.getP d).withCoefs 255 fun _ => 0)

/-- `P.MOV Pd, Pa` (R127): the whole register, coefficients above the order included. -/
def execPMov (d a : PReg) (s : State) : Result :=
  attempt (.pMov d a) s [] fun s => s.setP d (s.getP a)

/-- `P.LDCI Pd, idx, val` (R138). -/
def execPLdci (d : PReg) (idx val : Byte) (s : State) : Result :=
  attempt (.pLdci d idx val) s [] fun s => s.setP d ((s.getP d).withCoef idx.toNat val)

/-! ## Arithmetic (R128 to R137) -/

/-- `P.MUL Pd, Pa, Pb` (R128): the destination's order is an input. -/
def execPMul (d a b : PReg) (s : State) : Result :=
  attempt (.pMul d a b) s [noField s, noAlias d a, noAlias d b] fun s =>
    s.setP d (polyMul s.tab (s.getP a) (s.getP b) (s.getP d).deg (s.getP d))

/-- `P.MOD Pd, Pa, Pb` (R129): remainder of `P[a]` by `P[b]`. -/
def execPMod (d a b : PReg) (s : State) : Result :=
  attempt (.pMod d a b) s
    [noField s, noAlias d b,
     raises .capacity ((s.getP d).deg < (s.getP a).deg),
     raises .divideByZero ((s.getP b).coef (s.getP b).deg = 0)] fun s =>
    s.setP d (polyMod s.tab (s.getP a) (s.getP b) (s.getP d))

/-- `P.DER Pd, Pa` (R130): works before the tables are built. -/
def execPDer (d a : PReg) (s : State) : Result :=
  attempt (.pDer d a) s [noAlias d a] fun s => s.setP d (polyDer (s.getP a) (s.getP d))

/-- `P.EVAL xd, Pa, xb` (R131). -/
def execPEval (d : XReg) (a : PReg) (b : XReg) (s : State) : Result :=
  attempt (.pEval d a b) s [noField s, needByte s b] fun s =>
    s.setXByte d (polyEval s.tab (s.getP a) (s.byteX b))

/-- `P.POWS Pd, xa` (R132): the destination's order is an input. -/
def execPPows (d : PReg) (a : XReg) (s : State) : Result :=
  attempt (.pPows d a) s [noField s, needByte s a] fun s =>
    s.setP d (polyPows s.tab (s.byteX a) (s.getP d))

/-- `P.EVALP xd, Pa, Pb` (R133). -/
def execPEvalp (d : XReg) (a b : PReg) (s : State) : Result :=
  attempt (.pEvalp d a b) s [noField s, raises .capacity ((s.getP b).deg < (s.getP a).deg)]
    fun s => s.setXByte d (polyEvalPowers s.tab (s.getP a) (s.getP b))

/-- `P.TOLOG Pd, Pa` (R134). -/
def execPTolog (d a : PReg) (s : State) : Result :=
  attempt (.pTolog d a) s [noField s] fun s =>
    s.setP d (polyToLog s.tab (s.getP a) (s.getP d))

/-- `P.EVALL xd, Pa, Pb` (R135). -/
def execPEvall (d : XReg) (a b : PReg) (s : State) : Result :=
  attempt (.pEvall d a b) s [noField s, raises .capacity ((s.getP b).deg < (s.getP a).deg)]
    fun s => s.setXByte d (polyEvalLog s.tab (s.getP a) (s.getP b))

/-- `P.ROOTS Pd, Pa` (R137): the product is built in `SCR`, copied to `P[d]`, and `RSEL` names the
buffer that holds it (R32). -/
def execPRoots (d a : PReg) (s : State) : Result :=
  attempt (.pRoots d a) s
    [noField s, noAlias d a, raises .capacity (255 < (s.getP a).deg + 1)] fun s =>
    let n := (s.getP a).deg + 1
    let b := rootsLoop s.tab (s.getP a) { buf0 := s.scr0, buf1 := s.scr1, sel := false }
    let t := s.setP d (((s.getP d).withOrd n).withCoefs n b.current.coef)
    { t with scr0 := b.buf0, scr1 := b.buf1, rsel := b.sel }

end Sys2Proof.Machine
end

