-- ==== Sys2Proof/Machine/System.lean ====
section
/-! DEFINITION. The scalar move and system commands (`45_system_ops.md` R210 to R214). -/

namespace Sys2Proof.Machine

open Sys2Proof

/-- `NOP`: no effect on any state (R210). -/
def execNop (s : State) : Result := .next s

/-- `LI xd, imm` (R211). -/
def execLi (d : XReg) (imm : BitVec 16) (s : State) : Result := .next (s.setX d (sext32 imm))

/-- `LIH xd, imm` (R212): the upper half is replaced, the lower half kept. -/
def execLih (d : XReg) (imm : BitVec 16) (s : State) : Result :=
  .next (s.setX d (upperHalf imm (s.getX d)))

/-- `MOV xd, xa` (R213). -/
def execMov (d a : XReg) (s : State) : Result := .next (s.setX d (s.getX a))

/-- `CLRF` (R214, R267). `OVF` is not cleared. -/
def execClrf (s : State) : Result := .next s.clearLatch

end Sys2Proof.Machine
end

