-- ==== Sys2Proof/Machine/Viterbi.lean ====
section
/-! DEFINITION. The commands of the trellis unit (`43_viterbi.md` R170 to R176, R184 to R189). -/

namespace Sys2Proof.Machine

open Sys2Proof

/-- The decoder is not ready (R174, R184, R185). -/
def notReady (s : State) : Check := raises .sequence (s.vstate ≠ .ready)

/-- The parity of the register value `v` masked by a generator polynomial: one output tap (R171). -/
def tapBit (v : Nat) (poly : Word) : Bool := popcount (BitVec.ofNat 32 v &&& poly) % 2 == 1

/-- The output symbol of the register value `v`: the `rate`-bit number whose bit `j` is the output of
tap `j` (R171). -/
def outputSymbol (poly : Mem Word 8) (rate v : Nat) : Byte :=
  (List.range rate).foldl (fun o j => if tapBit v (poly.read j) then o ||| BitVec.twoPow 8 j else o) 0

/-- `VT.POLY j, xa` (R170): all 32 bits, in every `VSTATE`. -/
def execVtPoly (j : Nat) (a : XReg) (s : State) : Result :=
  attempt (.vtPoly j a) s [raises .operandRange (notIndex8 j)] fun s =>
    { s with poly := s.poly.write j (s.getX a) }

/-- `VT.CFG xa, xb` (R171): rate and order, the output table, `ESR` cleared, `CONFIGURED`. The decoder's
buffers and parameters keep what they held (log entry 18). -/
def execVtCfg (a b : XReg) (s : State) : Result :=
  attempt (.vtCfg a b) s
    [raises .rate ((s.getX a).toNat < Config.rateMin ∨ Config.rateMax < (s.getX a).toNat),
     raises .order ((s.getX b).toNat < Config.orderMin ∨ Config.orderMax < (s.getX b).toNat)]
    fun s =>
      let rate := (s.getX a).toNat
      let order := (s.getX b).toNat
      { s with
        rate := BitVec.ofNat 4 rate
        order := BitVec.ofNat 5 order
        outtab := (List.range (2 ^ order)).map (outputSymbol s.poly rate)
        esr := 0
        vstate := .configured }

/-- `VT.MODE imm` (R172): in every `VSTATE`. -/
def execVtMode (n : Nat) (s : State) : Result :=
  attempt (.vtMode n) s [raises .operandRange (1 < n)] fun s =>
    { s with softmode := n == 1 }

/-- `VT.INIT` (R173): the decoder's parameters and buffers are made for the configured code. -/
def execVtInit (s : State) : Result :=
  attempt .vtInit s [noCode s] fun s =>
    let order := s.order.toNat
    let cap := Config.tracebackFactor * order + Config.burstFactor * order
    { s with
      tbmin := BitVec.ofNat 16 (Config.tracebackFactor * order)
      tbburst := BitVec.ofNat 16 (Config.burstFactor * order)
      cap := BitVec.ofNat 16 cap
      rint := BitVec.ofNat 16 (65535 / (s.rate.toNat * 255))
      pm0 := List.replicate s.registerCount 0
      pm1 := List.replicate s.registerCount 0
      pmsel := false
      dist := List.replicate s.symbolCount 0
      hist := List.replicate cap (List.replicate s.stateCount false)
      hidx := 0
      hlen := 0
      rcnt := 0
      slice := 0
      sets := 0
      outq := []
      ovf := false
      vstate := .ready }

/-- `VT.RESET xa` (R174): start a decode of `x[a]` slices. `HIST` and `DIST` are not rewritten. -/
def execVtReset (a : XReg) (s : State) : Result :=
  attempt (.vtReset a) s
    [notReady s, raises .length ((s.getX a).toNat < 2 * s.order.toNat - 2)] fun s =>
    { s with
      pm0 := List.replicate s.registerCount 0
      pm1 := List.replicate s.registerCount 0
      pmsel := false
      hidx := 0
      hlen := 0
      rcnt := 0
      slice := 0
      sets := s.getX a
      outq := []
      ovf := false }

/-- A step is out of place: not ready, or no slice left (R163). -/
def noSlice (s : State) : Check :=
  raises .sequence (s.vstate ≠ .ready ∨ s.sets.toNat ≤ s.slice.toNat)

/-- `VT.STEPH xa` (R175): one slice with the hard symbol `x[a]`. -/
def execVtSteph (a : XReg) (s : State) : Result :=
  attempt (.vtSteph a) s [noSlice s, raises .operandRange (s.symbolCount ≤ (s.getX a).toNat)]
    fun s => s.trellisStep (s.hardDistances (s.getX a))

/-- `VT.STEPS` (R176): one slice with the soft symbols `SYM`, which are not consumed. -/
def execVtSteps (s : State) : Result :=
  attempt .vtSteps s [noSlice s] fun s => s.trellisStep s.softDistances

/-- `VT.FLUSH` (R184): the remaining history is emitted from state 0. -/
def execVtFlush (s : State) : Result :=
  attempt .vtFlush s [raises .sequence (s.vstate ≠ .ready ∨ s.slice ≠ s.sets)] fun s =>
    s.traceback 0 0

/-- `VT.QLEN xd` (R185). -/
def execVtQlen (d : XReg) (s : State) : Result :=
  attempt (.vtQlen d) s [notReady s] fun s => s.setX d (BitVec.ofNat 32 s.outq.length)

/-- `VT.RDQ xd, xa` (R186): nothing is removed. -/
def execVtRdq (d a : XReg) (s : State) : Result :=
  attempt (.vtRdq d a) s [notReady s, raises .operandRange (s.outq.length ≤ (s.getX a).toNat)]
    fun s => s.setX d ((bit1 (s.outq.getD (s.getX a).toNat false)).setWidth 32)

/-- `VT.TAB xd, xa` (R188). -/
def execVtTab (d a : XReg) (s : State) : Result :=
  attempt (.vtTab d a) s [noCode s, raises .operandRange (s.registerCount ≤ (s.getX a).toNat)]
    fun s => s.setXByte d (s.outtab.getD (s.getX a).toNat 0)

/-- `VT.PM xd, xa` (R189): the read bank. -/
def execVtPm (d a : XReg) (s : State) : Result :=
  attempt (.vtPm d a) s [notReady s, raises .operandRange (s.registerCount ≤ (s.getX a).toNat)]
    fun s => s.setX d ((s.readBank.getD (s.getX a).toNat 0).setWidth 32)

end Sys2Proof.Machine
end

