-- ==== Sys2Proof/Machine/Dispatch.lean ====
section
/-! DEFINITION. One arm per command of the opcode table (R75). -/

namespace Sys2Proof.Machine

open Sys2Proof

def exec (i : Instr) (s : State) : Host.Outcome State Fault Refusal :=
  match i with
  | .nop => Sys2Proof.Machine.execNop s
  | .li d imm => Sys2Proof.Machine.execLi d imm s
  | .lih d imm => Sys2Proof.Machine.execLih d imm s
  | .mov d a => Sys2Proof.Machine.execMov d a s
  | .clrf => Sys2Proof.Machine.execClrf s
  | .gfBuild a => Sys2Proof.Machine.execGfBuild a s
  | .gfAdd d a b => Sys2Proof.Machine.execGfAdd d a b s
  | .gfSub d a b => Sys2Proof.Machine.execGfSub d a b s
  | .gfMul d a b => Sys2Proof.Machine.execGfMul d a b s
  | .gfDiv d a b => Sys2Proof.Machine.execGfDiv d a b s
  | .gfSum d a b => Sys2Proof.Machine.execGfSum d a b s
  | .gfPow d a b => Sys2Proof.Machine.execGfPow d a b s
  | .gfLog d a => Sys2Proof.Machine.execGfLog d a s
  | .gfExp d a => Sys2Proof.Machine.execGfExp d a s
  | .gfMullog d a b => Sys2Proof.Machine.execGfMullog d a b s
  | .gfDivlog d a b => Sys2Proof.Machine.execGfDivlog d a b s
  | .pSetord d n => Sys2Proof.Machine.execPSetord d n s
  | .pGetord d a => Sys2Proof.Machine.execPGetord d a s
  | .pLdc d a b => Sys2Proof.Machine.execPLdc d a b s
  | .pStc d a b => Sys2Proof.Machine.execPStc d a b s
  | .pClr d => Sys2Proof.Machine.execPClr d s
  | .pMov d a => Sys2Proof.Machine.execPMov d a s
  | .pMul d a b => Sys2Proof.Machine.execPMul d a b s
  | .pMod d a b => Sys2Proof.Machine.execPMod d a b s
  | .pDer d a => Sys2Proof.Machine.execPDer d a s
  | .pEval d a b => Sys2Proof.Machine.execPEval d a b s
  | .pPows d a => Sys2Proof.Machine.execPPows d a s
  | .pEvalp d a b => Sys2Proof.Machine.execPEvalp d a b s
  | .pTolog d a => Sys2Proof.Machine.execPTolog d a s
  | .pEvall d a b => Sys2Proof.Machine.execPEvall d a b s
  | .pRoots d a => Sys2Proof.Machine.execPRoots d a s
  | .pLdci d idx val => Sys2Proof.Machine.execPLdci d idx val s
  | .bmHard d a b => Sys2Proof.Machine.execBmHard d a b s
  | .bmSoftl d a => Sys2Proof.Machine.execBmSoftl d a s
  | .bmSoftq d a => Sys2Proof.Machine.execBmSoftq d a s
  | .bmSym j a => Sys2Proof.Machine.execBmSym j a s
  | .bmSymi j n => Sys2Proof.Machine.execBmSymi j n s
  | .vtCfg a b => Sys2Proof.Machine.execVtCfg a b s
  | .vtInit => Sys2Proof.Machine.execVtInit s
  | .vtReset a => Sys2Proof.Machine.execVtReset a s
  | .vtSteph a => Sys2Proof.Machine.execVtSteph a s
  | .vtSteps => Sys2Proof.Machine.execVtSteps s
  | .vtFlush => Sys2Proof.Machine.execVtFlush s
  | .vtMode n => Sys2Proof.Machine.execVtMode n s
  | .encRst => Sys2Proof.Machine.execEncRst s
  | .encBit d a => Sys2Proof.Machine.execEncBit d a s
  | .vtQlen d => Sys2Proof.Machine.execVtQlen d s
  | .vtRdq d a => Sys2Proof.Machine.execVtRdq d a s
  | .vtTab d a => Sys2Proof.Machine.execVtTab d a s
  | .vtPm d a => Sys2Proof.Machine.execVtPm d a s
  | .vtPoly j a => Sys2Proof.Machine.execVtPoly j a s

end Sys2Proof.Machine
end

