-- ==== Sys2Proof/Machine/Issue.lean ====
section
/-! DEFINITION. What the block does with the next event of its host (R10, R14): the block fetches
nothing, the host presents each command word. -/

namespace Sys2Proof.Machine

open Sys2Proof

/-- What the next event comes to. -/
inductive Issued where
  /-- the step is over: the block is idle, was reset, ignored the word, or latched `IllegalCommand` -/
  | settled (t : State)
  /-- the command is to run in this state -/
  | run (i : Instr) (t : State)
deriving DecidableEq, Repr

/-- The block after a reset event (R290): every item of R34 at its value, and the unspecified ones
(`x`, `P`, `SCR`, `PRIM`, `EXP`, `LOG`) at FREE values (U1, log entry 5). The host's further events are
kept. -/
def State.afterReset (s : State) : State :=
  let free (item : Config.ResetItem) (w : Nat) : BitVec w := Config.unspecified s.draws item w
  { State.reset with
    x := Mem.ofFn 16 fun i => free (.scalar i) 32
    p := Mem.ofFn 16 fun i =>
      { ord := free (.polyOrd i) 8, c := Mem.ofFn 256 fun k => free (.polyCoef i k) 8 }
    prim := free .prim 9
    tab :=
      { exp := Mem.ofFn 512 fun k => free (.exp k) 8, log := Mem.ofFn 256 fun k => free (.log k) 8 }
    scr0 := { ord := free (.scratchOrd 0) 8, c := Mem.ofFn 256 fun k => free (.scratchCoef 0 k) 8 }
    scr1 := { ord := free (.scratchOrd 1) 8, c := Mem.ofFn 256 fun k => free (.scratchCoef 1 k) 8 }
    host := s.host
    draws := s.draws + 1 }

/-- The word `CLRF`, the only one with an effect while the latch is set (R77, R263). -/
def clrfWord : Word := 0x04000000#32

/-- A command word presented in the state `t`: ignored while the latch is set, but for `CLRF` (R263);
else run, or `IllegalCommand` where it is no command (R76). -/
def presentWord (w : Word) (t : State) : Issued :=
  if t.fault then (if w = clrfWord then .run .clrf t else .settled t)
  else
    match decode w with
    | some i => .run i t
    | none => .settled (t.latch .illegalCommand w)

/-- The next event of the host. With none, the block waits and nothing changes (log entry 4). -/
def State.nextEvent (s : State) : Issued :=
  match s.host with
  | [] => .settled s
  | .reset :: rest => .settled ({ s with host := rest }).afterReset
  | .command w :: rest => presentWord w { s with host := rest }

/-- The word whose low `nbits` bits are `w` and whose other bits are 0. -/
def tableWord (nbits w : Nat) : Word := BitVec.ofNat 32 (w % 2 ^ nbits)

end Sys2Proof.Machine
end

