-- ==== Sys2Proof/Machine/HostPort.lean ====
section
/-! DEFINITION. The host read port (R29): what the host reads between commands at each number. A read
has no side effect and never faults; an index that does not exist reads 0. `OUTTAB`, `PM`, `DIST`,
`HIST` and `SCR` are not on the port. -/

namespace Sys2Proof.Machine

open Sys2Proof

/-- The control and status registers, port numbers 0x010 to 0x01F. -/
def State.hostRegister (s : State) : (n : Nat) → Word
  | 0x010 => s.status
  | 0x011 => s.einfo
  | 0x012 => s.prim.setWidth 32
  | 0x013 => s.rate.setWidth 32
  | 0x014 => s.order.setWidth 32
  | 0x015 => s.tbmin.setWidth 32
  | 0x016 => s.tbburst.setWidth 32
  | 0x017 => s.cap.setWidth 32
  | 0x018 => s.rint.setWidth 32
  | 0x019 => s.slice
  | 0x01A => s.sets
  | 0x01B => s.hidx.setWidth 32
  | 0x01C => s.hlen.setWidth 32
  | 0x01D => s.rcnt.setWidth 32
  | 0x01E => BitVec.ofNat 32 s.outq.length
  | 0x01F => s.esr.setWidth 32
  | _ => 0

/-- A coefficient, port numbers 0x1000 to 0x1FFF: `P[i].c[k]` at `0x1000 + 256 i + k`. -/
def State.hostCoef (s : State) (m : Nat) : Byte :=
  if h : m / 256 < 16 then (s.getP ⟨m / 256, h⟩).coef (m % 256) else 0

/-- What the host reads at the port number `n` (R29). -/
def State.hostRead (s : State) (n : Nat) : Word :=
  if h : n < 0x010 then s.getX ⟨n, h⟩
  else if n < 0x020 then s.hostRegister n
  else if n < 0x028 then s.poly.read (n - 0x020)
  else if n < 0x030 then (s.sym.read (n - 0x028)).setWidth 32
  else if h : 0x100 ≤ n ∧ n < 0x110 then (s.getP ⟨n - 0x100, by omega⟩).ord.setWidth 32
  else if 0x1000 ≤ n ∧ n < 0x2000 then (s.hostCoef (n - 0x1000)).setWidth 32
  else if 0x3000 ≤ n ∧ n < 0x3200 then (s.tab.exp.read (n - 0x3000)).setWidth 32
  else if 0x3200 ≤ n ∧ n < 0x3300 then (s.tab.log.read (n - 0x3200)).setWidth 32
  else if 0x4000 ≤ n then (bit1 (s.outq.getD (n - 0x4000) false)).setWidth 32
  else 0

end Sys2Proof.Machine
end

