-- ==== Sys2Proof/Safety.lean ====
section
/-! DEFINITION. What counts as a state that a run can be in, as one invariant per unit. A state that
satisfies `State.Inv` holds what `10_state.md` says of each register's range and of each buffer's
extent; no index that a command forms in such a state is outside a memory (R50). -/

namespace Sys2Proof.Machine

open Sys2Proof

/-- The fault latch (R17, R261): with no fault latched the cause and the word are 0; with one latched
the cause is one of the codes 1 to 10. -/
structure State.LatchOk (s : State) : Prop where
  clear : s.fault = false → s.cause = 0 ∧ s.einfo = 0
  held : s.fault = true → 1 ≤ s.cause.toNat ∧ s.cause.toNat ≤ 10

/-- The field unit (R18, R94, R95): once built, the tables are those of `PRIM`, a polynomial that
`GF.BUILD` accepts. -/
structure State.FieldOk (s : State) : Prop where
  accepted : s.fvalid = true → ¬ primRefused (s.prim.setWidth 32)
  tables : s.fvalid = true → s.tab = buildTables s.prim

/-- The convolutional code (R19, R20, R28, R36): unconfigured with rate and order 0, or configured with
both in range and an output table of `2^ORDER` entries of `RATE` bits; `ESR` has `ORDER` bits. -/
structure State.CodeOk (s : State) : Prop where
  unconf : s.vstate = .unconf → s.rate = 0 ∧ s.order = 0 ∧ s.outtab = []
  rate : s.vstate ≠ .unconf → Config.rateMin ≤ s.rate.toNat ∧ s.rate.toNat ≤ Config.rateMax
  order : s.vstate ≠ .unconf → Config.orderMin ≤ s.order.toNat ∧ s.order.toNat ≤ Config.orderMax
  extent : s.vstate ≠ .unconf → s.outtab.length = s.registerCount
  symbols : ∀ o ∈ s.outtab, o.toNat < s.symbolCount
  register : s.esr.toNat < s.registerCount

/-- The decoder, once `READY` (R21 to R27, R161, R173, R183): the parameters are those of the code, the
buffers have their extents, the unused half of each bank is 0, the counters are in range, `SETS` is 0
or at least `2 × ORDER − 2`, and the bits emitted and the slots held are together the inner and tail
slices so far. -/
structure State.DecoderOk (s : State) : Prop where
  tbmin : s.tbmin.toNat = 5 * s.order.toNat
  tbburst : s.tbburst.toNat = 15 * s.order.toNat
  cap : s.cap.toNat = 20 * s.order.toNat
  rint : s.rint.toNat = 65535 / (s.rate.toNat * 255)
  bank0 : s.pm0.length = s.registerCount
  bank1 : s.pm1.length = s.registerCount
  upper0 : ∀ k, s.stateCount ≤ k → s.pm0.getD k 0 = 0
  upper1 : ∀ k, s.stateCount ≤ k → s.pm1.getD k 0 = 0
  dist : s.dist.length = s.symbolCount
  ring : s.hist.length = s.cap.toNat
  slots : ∀ slot ∈ s.hist, slot.length = s.stateCount
  hidx : s.hidx.toNat < s.cap.toNat
  hlen : s.hlen.toNat < s.cap.toNat
  rcnt : s.rcnt.toNat < s.rint.toNat
  slice : s.slice.toNat ≤ s.sets.toNat
  sets : s.sets = 0 ∨ 2 * s.order.toNat - 2 ≤ s.sets.toNat
  emitted : s.outq.length + s.hlen.toNat = s.slice.toNat - (s.order.toNat - 1)

/-- The invariant of the block. -/
structure State.Inv (s : State) : Prop where
  latch : s.LatchOk
  field : s.FieldOk
  code : s.CodeOk
  decoder : s.vstate = .ready → s.DecoderOk

end Sys2Proof.Machine
end

