-- ==== Sys2Proof/Certificates/Slice0/Obligations.lean ====
section
/-! DEFINITION. The statements for the provers. The definitions under `Sys2Proof.Claims` say in the
spec's own words what the statements compare the model with; none of them calls a meaning. -/

namespace Sys2Proof.Claims

open Sys2Proof Sys2Proof.Machine

/-- The command faults with the cause `c`: the latch is written and nothing else (R262). -/
def Faults (i : Instr) (s : State) (c : Cause) : Prop :=
  exec i s = .next { s with fault := true, cause := c.code, einfo := encode i }

/-- The value of a scalar register. -/
def xv (s : State) (a : XReg) : Nat := (s.getX a).toNat

/-- A byte in a scalar register, zero-extended. -/
def ext8 (v : Byte) : Word := v.setWidth 32

/-! ## The field (R91, R95, R96) -/

/-- Multiplication of the element `e` by alpha = `0x02` modulo `p`. -/
def timesAlpha (p e : Nat) : Nat := if 255 < 2 * e then (2 * e) ^^^ p else 2 * e

/-- `a` multiplied `k` times by alpha. -/
def scaled (p a : Nat) : Nat → Nat
  | 0 => a
  | k + 1 => timesAlpha p (scaled p a k)

/-- R95's first wording: the powers 1..254 of alpha are pairwise distinct and none is 1, and the power
255 is 1. -/
def Primitive (p : Nat) : Prop :=
  0x100 ≤ p ∧ p ≤ 0x1FF ∧
  (∀ i j, 1 ≤ i → i < j → j ≤ 254 → scaled p 1 i ≠ scaled p 1 j) ∧
  (∀ i, 1 ≤ i → i ≤ 254 → scaled p 1 i ≠ 1) ∧ scaled p 1 255 = 1

/-- The product of two 8-bit polynomials without carries, reduced modulo `p`: the xor of `a x^k mod p`
over the bits `k` of `b`. -/
def fieldProduct (p a b : Nat) : Nat :=
  (List.range 8).foldl (fun acc k => if b.testBit k then acc ^^^ scaled p a k else acc) 0

/-! ## Polynomials -/

/-- The xor of `f 0`, …, `f (n − 1)`. -/
def xorSum (n : Nat) (f : Nat → Byte) : Byte := (List.range n).foldl (fun acc i => acc ^^^ f i) 0

/-- The product of a polynomial by another, at `x^k`. -/
def productCoef (t : Tables) (a b : PolyReg) (k : Nat) : Byte :=
  xorSum (k + 1) fun i =>
    if i ≤ a.deg ∧ k - i ≤ b.deg then gfMul t (a.coef i) (b.coef (k - i)) else 0

/-- `v^n` by repeated products, with `v^0 = 1`. -/
def elementPower (t : Tables) (v : Byte) : Nat → Byte
  | 0 => 1
  | n + 1 => gfMul t (elementPower t v n) v

/-- `((c[n]·v + c[n−1])·v + …)·v + c[0]`, Horner's value, over the `n` highest coefficients of `q`
below `m`. -/
def horner (t : Tables) (q : PolyReg) (v : Byte) : (n m : Nat) → Byte
  | 0, _ => 0
  | n + 1, m => gfMul t (horner t q v n (m + 1)) v ^^^ q.coef m

/-- The product of `(x + root_i)` over the first `n` coefficients of `roots`, at `x^k` (R137). -/
def monicProduct (t : Tables) (roots : PolyReg) : (n : Nat) → (k : Nat) → Byte
  | 0, k => if k = 0 then 1 else 0
  | n + 1, k =>
    (if k = 0 then 0 else monicProduct t roots n (k - 1))
      ^^^ gfMul t (roots.coef n) (monicProduct t roots n k)

/-! ## Distances (R150, R151, R157) -/

/-- The number of 1 bits of a number below 2^32. -/
def bitCount (v : Nat) : Nat := ((List.range 32).filter fun k => v.testBit k).length

/-- The ideal soft value of tap `j` for the symbol `o`. -/
def idealValue (o j : Nat) : Nat := if o.testBit j then 255 else 0

/-- The distance between two numbers. -/
def gap (a b : Nat) : Nat := max a b - min a b

/-- The exact linear distance of the symbol `o`. -/
def linearDistance (s : State) (o : Nat) : Nat :=
  ((List.range s.rate.toNat).map fun j => gap (s.sym.read j).toNat (idealValue o j)).sum

/-- The exact quadratic distance of the symbol `o`. -/
def quadraticDistance (s : State) (o : Nat) : Nat :=
  ((List.range s.rate.toNat).map fun j => gap (s.sym.read j).toNat (idealValue o j) ^ 2).sum / 8

/-- The command `i` is a trellis step that sets the distance table `dist` (R157, R175, R176). -/
def StepsWith (i : Instr) (s : State) (dist : List Metric) : Prop :=
  (∃ a, i = .vtSteph a ∧ xv s a < 2 ^ s.rate.toNat ∧
    dist = (List.range (2 ^ s.rate.toNat)).map fun o => BitVec.ofNat 16 (bitCount (o ^^^ xv s a))) ∨
  (i = .vtSteps ∧
    dist = (List.range (2 ^ s.rate.toNat)).map fun o =>
      BitVec.ofNat 16 (if s.softmode then quadraticDistance s o else linearDistance s o))

/-! ## The trellis (R161 to R165) -/

/-- `PM[PMSEL][k]`. -/
def readPM (s : State) (k : Nat) : Nat := ((if s.pmsel then s.pm1 else s.pm0).getD k 0).toNat

/-- `PM[1 − PMSEL][k]`. -/
def writePM (s : State) (k : Nat) : Nat := ((if s.pmsel then s.pm0 else s.pm1).getD k 0).toNat

/-- The number of trellis states. -/
def states (s : State) : Nat := 2 ^ (s.order.toNat - 1)

/-- The branch distance of the register value `v` under the table `dist`. -/
def branchOf (s : State) (dist : List Metric) (v : Nat) : Nat :=
  (dist.getD (s.outtab.getD v 0).toNat 0).toNat

/-- The exact sum through the predecessor with oldest bit 0. -/
def sumZero (s : State) (dist : List Metric) (st : Nat) : Nat :=
  branchOf s dist st + readPM s (st / 2)

/-- The exact sum through the predecessor with oldest bit 1. -/
def sumOne (s : State) (dist : List Metric) (st : Nat) : Nat :=
  branchOf s dist (st + states s) + readPM s (st / 2 + states s / 2)

/-- The metric that add-compare-select keeps: the lesser of the two wrapped sums. -/
def survivorOf (s : State) (dist : List Metric) (st : Nat) : Nat :=
  min (sumZero s dist st % 65536) (sumOne s dist st % 65536)

/-- The `skip` of an inner or tail slice (R162). -/
def skipOf (s : State) : Nat :=
  if s.slice.toNat + s.order.toNat ≤ s.sets.toNat then 1
  else 2 ^ (s.order.toNat - (s.sets.toNat - s.slice.toNat))

/-- `b` is the lowest-numbered state of least metric among those an inner or tail slice writes (R169). -/
def LowestLeast (s : State) (dist : List Metric) (b : Nat) : Prop :=
  b < states s ∧ skipOf s ∣ b ∧
  ∀ st, st < states s → skipOf s ∣ st →
    survivorOf s dist b ≤ survivorOf s dist st ∧
    (survivorOf s dist st = survivorOf s dist b → b ≤ st)

/-- The metrics that a slice writes: in warm-up those of the active register values (R164), else those of
the states that are multiples of `skip` (R165). -/
def WrittenState (s : State) (k : Nat) : Prop :=
  if s.slice.toNat + 2 ≤ s.order.toNat then k < 2 ^ (s.slice.toNat + 1)
  else k < states s ∧ skipOf s ∣ k

/-- The state with `w` as its write bank `PM[1 − PMSEL]` (R22). -/
def withWriteBank (s : State) (w : List Metric) : State :=
  { s with pm0 := if s.pmsel then w else s.pm0, pm1 := if s.pmsel then s.pm1 else w }

/-- R165: `HIST[HIDX]` after an inner or tail slice from `s` to `t`: at the multiples of `skip` whether the
candidate with oldest bit 1 is strictly the lesser, elsewhere the stale bit. -/
def RecordsSurvivors (s t : State) (dist : List Metric) : Prop :=
  ∀ st < states s,
    (skipOf s ∣ st → t.histBit s.hidx.toNat st =
      decide (sumOne s dist st % 65536 < sumZero s dist st % 65536)) ∧
    (¬ skipOf s ∣ st → t.histBit s.hidx.toNat st = s.histBit s.hidx.toNat st)

/-- R166: `OVF` after an inner or tail slice from `s` to `t`: set before, or one of the sums formed exceeds
65535. -/
def SetsOverflow (s t : State) (dist : List Metric) : Prop :=
  t.ovf = true ↔ s.ovf = true ∨ ∃ st < states s, skipOf s ∣ st ∧
    (65535 < sumZero s dist st ∨ 65535 < sumOne s dist st)

/-- A slice may be processed: ready, a slice left (R163). -/
def SliceLeft (s : State) : Prop := s.vstate = .ready ∧ s.slice.toNat < s.sets.toNat

/-! ## Faults (R264, R265) -/

/-- R265's column "Sequence when". -/
def sequenceWhen (s : State) : Instr → Bool
  | .nop | .li _ _ | .lih _ _ | .mov _ _ | .clrf => false
  | .gfBuild _ => s.fvalid
  | .gfAdd _ _ _ | .gfSub _ _ _ | .gfMul _ _ _ | .gfDiv _ _ _ | .gfSum _ _ _ | .gfPow _ _ _
  | .gfLog _ _ | .gfExp _ _ | .gfMullog _ _ _ | .gfDivlog _ _ _ => !s.fvalid
  | .pSetord _ _ | .pGetord _ _ | .pClr _ | .pMov _ _ | .pLdci _ _ _ | .pLdc _ _ _ | .pStc _ _ _
  | .pDer _ _ => false
  | .pMul _ _ _ | .pMod _ _ _ | .pEval _ _ _ | .pPows _ _ | .pEvalp _ _ _ | .pEvall _ _ _
  | .pTolog _ _ | .pRoots _ _ => !s.fvalid
  | .bmHard _ _ _ | .bmSym _ _ | .bmSymi _ _ | .vtPoly _ _ | .vtCfg _ _ | .vtMode _ => false
  | .bmSoftl _ _ | .bmSoftq _ _ | .vtInit | .vtTab _ _ | .encRst | .encBit _ _ =>
    s.vstate == .unconf
  | .vtReset _ | .vtQlen _ | .vtRdq _ _ | .vtPm _ _ => s.vstate != .ready
  | .vtSteph _ | .vtSteps => s.vstate != .ready || decide (s.sets.toNat ≤ s.slice.toNat)
  | .vtFlush => s.vstate != .ready || s.slice != s.sets

/-- R265's column "OperandRange when". -/
def rangeWhen (s : State) : Instr → Bool
  | .gfAdd _ a b | .gfSub _ a b | .gfMul _ a b | .gfDiv _ a b | .gfMullog _ a b | .gfDivlog _ a b
  | .pLdc _ a b => decide (255 < xv s a ∨ 255 < xv s b)
  | .gfSum _ a _ | .gfPow _ a _ | .gfLog _ a | .pPows _ a => decide (255 < xv s a)
  | .gfExp _ a => decide (511 < xv s a)
  | .pSetord _ n => decide (255 < n)
  | .pStc _ _ b | .pEval _ _ b => decide (255 < xv s b)
  | .bmSoftl _ a | .bmSoftq _ a | .vtSteph a => decide (2 ^ s.rate.toNat ≤ xv s a)
  | .bmSym j a => decide (7 < j ∨ 255 < xv s a)
  | .bmSymi j n => decide (7 < j ∨ 255 < n)
  | .vtPoly j _ => decide (7 < j)
  | .vtMode n => decide (1 < n)
  | .vtRdq _ a => decide (s.outq.length ≤ xv s a)
  | .vtTab _ a | .vtPm _ a => decide (2 ^ s.order.toNat ≤ xv s a)
  | .encBit _ a => decide (1 < xv s a)
  | .nop | .li _ _ | .lih _ _ | .mov _ _ | .clrf | .gfBuild _ => false
  | .pGetord _ _ | .pClr _ | .pMov _ _ | .pLdci _ _ _ | .pMul _ _ _ | .pMod _ _ _ | .pDer _ _
  | .pEvalp _ _ _ | .pEvall _ _ _ | .pTolog _ _ | .pRoots _ _ => false
  | .bmHard _ _ _ | .vtCfg _ _ | .vtInit | .vtReset _ | .vtSteps | .vtFlush | .vtQlen _
  | .encRst => false

/-- R265's aliasing faults (R139). -/
def aliasWhen : Instr → Bool
  | .pMul d a b => d == a || d == b
  | .pMod d _ b => d == b
  | .pDer d a | .pRoots d a => d == a
  | _ => false

/-- R265's order preconditions. -/
def capacityWhen (s : State) : Instr → Bool
  | .pMod d a _ => decide ((s.getP d).ord.toNat < (s.getP a).ord.toNat)
  | .pEvalp _ a b | .pEvall _ a b => decide ((s.getP b).ord.toNat < (s.getP a).ord.toNat)
  | .pRoots _ a => decide ((s.getP a).ord.toNat = 255)
  | _ => false

/-- `c` is the value-dependent cause of the command (R264, class 6). -/
def ValueCause (s : State) (i : Instr) (c : Cause) : Prop :=
  match i with
  | .gfBuild a => c = .primitivePoly ∧ ¬ Primitive (xv s a)
  | .gfDiv _ _ b => c = .divideByZero ∧ xv s b = 0
  | .pMod _ _ b => c = .divideByZero ∧ (s.getP b).c.read (s.getP b).ord.toNat = 0
  | .vtCfg a b =>
    (c = .rate ∧ (xv s a < 2 ∨ 8 < xv s a)) ∨
    (c = .order ∧ (2 ≤ xv s a ∧ xv s a ≤ 8) ∧ (xv s b < 2 ∨ 16 < xv s b))
  | .vtReset a => c = .length ∧ xv s a < 2 * s.order.toNat - 2
  | _ => False

/-! ## The lifecycle (R36) -/

/-- The lifecycle state after a command: `CONFIGURED` after a `VT.CFG` whose rate and order are in range
(R171), `READY` after a `VT.INIT` in a configured block (R173), else the one before. -/
def nextLifecycle (s : State) : Instr → VState
  | .vtCfg a b =>
    if 2 ≤ xv s a ∧ xv s a ≤ 8 ∧ 2 ≤ xv s b ∧ xv s b ≤ 16 then .configured else s.vstate
  | .vtInit => if s.vstate = .unconf then .unconf else .ready
  | _ => s.vstate

/-! ## What a command may write -/

/-- The scalar register that the command names as destination (R12). -/
def scalarDest : Instr → Option XReg
  | .li d _ | .lih d _ | .mov d _ => some d
  | .gfAdd d _ _ | .gfSub d _ _ | .gfMul d _ _ | .gfDiv d _ _ | .gfSum d _ _ | .gfPow d _ _
  | .gfLog d _ | .gfExp d _ | .gfMullog d _ _ | .gfDivlog d _ _ => some d
  | .pGetord d _ | .pStc d _ _ | .pEval d _ _ | .pEvalp d _ _ | .pEvall d _ _ => some d
  | .bmHard d _ _ | .bmSoftl d _ | .bmSoftq d _ => some d
  | .encBit d _ | .vtQlen d | .vtRdq d _ | .vtTab d _ | .vtPm d _ => some d
  | _ => none

/-- The polynomial register that the command names as destination (R30). -/
def polyDest : Instr → Option PReg
  | .pSetord d _ | .pLdc d _ _ | .pLdci d _ _ | .pClr d | .pMov d _ | .pMul d _ _ | .pMod d _ _
  | .pDer d _ | .pPows d _ | .pTolog d _ | .pRoots d _ => some d
  | _ => none

/-- The commands that R300 lets a host interleave with a decode: `GF.*`, `P.*`, `BM.HARD`, `ENC.*`. -/
def besideDecode : Instr → Bool
  | .gfBuild _ | .gfAdd _ _ _ | .gfSub _ _ _ | .gfMul _ _ _ | .gfDiv _ _ _ | .gfSum _ _ _
  | .gfPow _ _ _ | .gfLog _ _ | .gfExp _ _ | .gfMullog _ _ _ | .gfDivlog _ _ _ => true
  | .pSetord _ _ | .pGetord _ _ | .pLdc _ _ _ | .pStc _ _ _ | .pClr _ | .pMov _ _ | .pMul _ _ _
  | .pMod _ _ _ | .pDer _ _ | .pEval _ _ _ | .pPows _ _ | .pEvalp _ _ _ | .pTolog _ _
  | .pEvall _ _ _ | .pRoots _ _ | .pLdci _ _ _ => true
  | .bmHard _ _ _ | .encRst | .encBit _ _ => true
  | _ => false

/-- The whole state of the decoder and of its soft symbols is the same in two states. -/
def SameDecoder (s t : State) : Prop :=
  t.vstate = s.vstate ∧ t.rate = s.rate ∧ t.order = s.order ∧ t.outtab = s.outtab ∧
  t.softmode = s.softmode ∧ t.sym = s.sym ∧ t.tbmin = s.tbmin ∧ t.tbburst = s.tbburst ∧
  t.cap = s.cap ∧ t.rint = s.rint ∧ t.pm0 = s.pm0 ∧ t.pm1 = s.pm1 ∧ t.pmsel = s.pmsel ∧
  t.dist = s.dist ∧ t.hist = s.hist ∧ t.hidx = s.hidx ∧ t.hlen = s.hlen ∧ t.rcnt = s.rcnt ∧
  t.slice = s.slice ∧ t.sets = s.sets ∧ t.outq = s.outq ∧ t.ovf = s.ovf

/-- What R34 states of the state after reset (its "unspecified" items are not named). -/
def ResetTable (s : State) : Prop :=
  s.fault = false ∧ s.ovf = false ∧ s.cause = 0 ∧ s.einfo = 0 ∧ s.fvalid = false ∧
  s.vstate = .unconf ∧ s.rate = 0 ∧ s.order = 0 ∧ (∀ j < 8, s.poly.read j = 0) ∧
  s.softmode = false ∧ (∀ j < 8, s.sym.read j = 0) ∧ s.pmsel = false ∧ s.hidx = 0 ∧ s.hlen = 0 ∧
  s.rcnt = 0 ∧ s.slice = 0 ∧ s.sets = 0 ∧ s.tbmin = 0 ∧ s.tbburst = 0 ∧ s.cap = 0 ∧ s.rint = 0 ∧
  s.outq = [] ∧ s.esr = 0 ∧ s.rsel = false

end Sys2Proof.Claims

open Sys2Proof Sys2Proof.Machine Sys2Proof.Claims

/-! ## Encoding -/

/-- Decode and encode agree: the word of a well-formed instruction decodes to it, whatever its
operands (R70 to R75). -/
def Obligations.DecodeUndoesEncode : Prop :=
  ∀ i : Instr, i.wellFormed = true → decode (encode i) = some i

/-- Every legal word stands for one well-formed instruction, whose own word it is. -/
def Obligations.EncodeUndoesDecode : Prop :=
  ∀ (w : Word) (i : Instr), decode w = some i → i.wellFormed = true ∧ encode i = w

/-- R76: a word decodes exactly when it matches a row of the opcode table, the one whose mnemonic the
instruction has; no word matches two rows; the words of the unassigned opcodes do not decode; the
all-zero word is `NOP`; and an illegal word raises `IllegalCommand` and changes nothing else. -/
def Obligations.EveryWordMatchesOneRowOrIsIllegal : Prop :=
  (∀ w : Word,
    ((decode w).isSome = true ↔ ∃ r ∈ opcodeRows, r.covers w) ∧
    (∀ i, decode w = some i → ∃ r ∈ opcodeRows, r.mnemonic = i.mnemonic ∧ r.covers w) ∧
    (∀ r ∈ opcodeRows, ∀ r' ∈ opcodeRows, r.covers w → r'.covers w → r = r')) ∧
  (∀ w : Word, w.toNat / 2 ^ 24 ∈ List.range' 0x05 11 ++ List.range' 0x1B 5 ++ List.range' 0x35 11
    ++ List.range' 0x4E 178 → decode w = none) ∧
  decode 0#32 = some .nop ∧
  (∀ (s : State) (w : Word) (rest : List HostEvent), s.host = .command w :: rest →
    s.fault = false → decode w = none →
    step s = .next { s with host := rest, fault := true, cause := 1, einfo := w })

/-- The words that R78 writes beside its assembly lines decode to those lines. -/
def Obligations.TheSpecsExampleWordsDecode : Prop :=
  decode 0x00000000#32 = some .nop ∧ decode 0x0110011D#32 = some (.li 1 0x11D) ∧
  decode 0x0120FFFF#32 = some (.li 2 (-1)) ∧ decode 0x10010000#32 = some (.gfBuild 1) ∧
  decode 0x13423000#32 = some (.gfMul 4 2 3) ∧ decode 0x202000FE#32 = some (.pSetord 2 254) ∧
  decode 0x2F100361#32 = some (.pLdci 1 3 0x61) ∧ decode 0x27210000#32 = some (.pMod 2 1 0) ∧
  decode 0x29516000#32 = some (.pEval 5 1 6) ∧ decode 0x34100080#32 = some (.bmSymi 1 128) ∧
  decode 0x4D030000#32 = some (.vtPoly 0 3) ∧ decode 0x40012000#32 = some (.vtCfg 1 2) ∧
  decode 0x43010000#32 = some (.vtSteph 1) ∧ decode 0x48210000#32 = some (.encBit 2 1) ∧
  decode 0x04000000#32 = some .clrf

/-! ## The step, the latch and reset -/

/-- A step runs the decoded command: where the host's next word decodes to `i` and no fault is latched,
the step is `exec i` in the state with that word taken. The block has no program counter (R14), so
nothing else is added around `exec`. -/
def Obligations.StepRunsTheDecodedCommand : Prop :=
  ∀ (s : State) (w : Word) (rest : List HostEvent) (i : Instr), s.host = .command w :: rest →
    s.fault = false → decode w = some i → step s = exec i { s with host := rest }

/-- R263: while the latch is set every word but `CLRF` is consumed without effect, and the host read
port shows what it showed. -/
def Obligations.LatchedBlockIgnoresEveryWordButClrf : Prop :=
  ∀ (s : State) (w : Word) (rest : List HostEvent), s.host = .command w :: rest → s.fault = true →
    (w ≠ 0x04000000#32 → step s = .next { s with host := rest } ∧
      ∀ n, ({ s with host := rest } : State).hostRead n = s.hostRead n) ∧
    (w = 0x04000000#32 →
      step s = .next { s with host := rest, fault := false, cause := 0, einfo := 0 })

/-- R214: `CLRF` clears `FAULT`, `CAUSE` and `EINFO` and nothing else, and has no effect with no fault
latched. -/
def Obligations.ClrfClearsTheLatchAndNothingElse : Prop :=
  ∀ s : State,
    (s.fault = true → exec .clrf s = .next { s with fault := false, cause := 0, einfo := 0 }) ∧
    (s.fault = false → exec .clrf s = .next s)

/-- The state after reset, and the state after a reset event in any state, hold what R34's table
states; the items it leaves unspecified are not named (the model's values for them are log entries 1,
2 and 5). A reset event keeps the host's further events (the model's own field). -/
def Obligations.ResetLeavesTheTableOfResetValues : Prop :=
  ResetTable State.reset ∧
  ∀ (s : State) (rest : List HostEvent), s.host = .reset :: rest →
    ∃ t, step s = .next t ∧ ResetTable t ∧ t.host = rest

/-- No step stops the machine: from every state there is a next state (R260: a fault sets the latch and
the machine goes on; R76: the decoder is total). With no event of the host the block stays as it is:
that clause is THE MODEL'S CHOICE (log entry 4). -/
def Obligations.EveryStepAnswersANextState : Prop :=
  ∀ s : State, (∃ t, step s = .next t) ∧ (s.host = [] → step s = .next s)

/-- R262: where a command, legal or not, leaves a fault latched that was not, the state is that before
the command plus the latch: `FAULT`, the cause's code, and the command word in `EINFO`. The codes are
those of R261. -/
def Obligations.AFaultWritesOnlyTheLatch : Prop :=
  (Cause.illegalCommand.code = 1 ∧ Cause.divideByZero.code = 2 ∧ Cause.primitivePoly.code = 3 ∧
    Cause.rate.code = 4 ∧ Cause.order.code = 5 ∧ Cause.capacity.code = 6 ∧
    Cause.operandRange.code = 7 ∧ Cause.sequence.code = 8 ∧ Cause.aliased.code = 9 ∧
    Cause.length.code = 10) ∧
  ∀ (s t : State) (w : Word) (rest : List HostEvent), s.host = .command w :: rest →
    s.fault = false → step s = .next t → t.fault = true →
    ∃ c : Cause, t = { s with host := rest, fault := true, cause := c.code, einfo := w }

/-- R264 and R265: each command reports the first of its conditions in the order Sequence,
OperandRange, Alias, Capacity, value-dependent, with R265's conditions; and where none holds it
completes with the latch as it was, or, for `CLRF`, with none latched. -/
def Obligations.FaultsAreThoseOfTheTableInPriorityOrder : Prop :=
  ∀ (i : Instr) (s : State),
    (sequenceWhen s i = true → Faults i s .sequence) ∧
    (sequenceWhen s i = false → rangeWhen s i = true → Faults i s .operandRange) ∧
    (sequenceWhen s i = false → rangeWhen s i = false → aliasWhen i = true → Faults i s .aliased) ∧
    (sequenceWhen s i = false → rangeWhen s i = false → aliasWhen i = false →
      capacityWhen s i = true → Faults i s .capacity) ∧
    (∀ c, sequenceWhen s i = false → rangeWhen s i = false → aliasWhen i = false →
      capacityWhen s i = false → ValueCause s i c → Faults i s c) ∧
    (sequenceWhen s i = false → rangeWhen s i = false → aliasWhen i = false →
      capacityWhen s i = false → (∀ c, ¬ ValueCause s i c) → i ≠ .clrf →
      ∃ t, exec i s = .next t ∧ t.fault = s.fault ∧ t.cause = s.cause ∧ t.einfo = s.einfo) ∧
    (i = .clrf → ∃ t, exec i s = .next t ∧ t.fault = false)

/-- R16: the bits of `STATUS`. -/
def Obligations.StatusAssemblesTheFlagsAndTheCause : Prop :=
  ∀ s : State,
    s.status.getLsbD 0 = s.fault ∧ s.status.getLsbD 1 = s.ovf ∧ s.status.getLsbD 2 = s.fvalid ∧
    (s.status.toNat / 8 % 4 = match s.vstate with | .unconf => 0 | .configured => 1 | .ready => 2) ∧
    s.status.getLsbD 5 = s.softmode ∧ s.status.getLsbD 6 = s.rsel ∧ s.status.getLsbD 7 = s.pmsel ∧
    s.status.toNat / 256 = s.cause.toNat

/-- R29: what the host reads at each number of the read port, and 0 at every number that the table
does not give. -/
def Obligations.HostReadPortShowsTheItemsOfItsTable : Prop :=
  ∀ s : State,
    (∀ i : XReg, s.hostRead i = s.getX i) ∧
    s.hostRead 0x010 = s.status ∧ s.hostRead 0x011 = s.einfo ∧
    s.hostRead 0x012 = s.prim.setWidth 32 ∧ s.hostRead 0x013 = s.rate.setWidth 32 ∧
    s.hostRead 0x014 = s.order.setWidth 32 ∧ s.hostRead 0x015 = s.tbmin.setWidth 32 ∧
    s.hostRead 0x016 = s.tbburst.setWidth 32 ∧ s.hostRead 0x017 = s.cap.setWidth 32 ∧
    s.hostRead 0x018 = s.rint.setWidth 32 ∧ s.hostRead 0x019 = s.slice ∧
    s.hostRead 0x01A = s.sets ∧ s.hostRead 0x01B = s.hidx.setWidth 32 ∧
    s.hostRead 0x01C = s.hlen.setWidth 32 ∧ s.hostRead 0x01D = s.rcnt.setWidth 32 ∧
    s.hostRead 0x01E = BitVec.ofNat 32 s.outq.length ∧ s.hostRead 0x01F = s.esr.setWidth 32 ∧
    (∀ j < 8, s.hostRead (0x020 + j) = s.poly.read j) ∧
    (∀ j < 8, s.hostRead (0x028 + j) = (s.sym.read j).setWidth 32) ∧
    (∀ i : PReg, s.hostRead (0x100 + i) = (s.getP i).ord.setWidth 32) ∧
    (∀ (i : PReg) (k : Nat), k < 256 →
      s.hostRead (0x1000 + 256 * i + k) = ((s.getP i).c.read k).setWidth 32) ∧
    (∀ k < 512, s.hostRead (0x3000 + k) = (s.tab.exp.read k).setWidth 32) ∧
    (∀ k < 256, s.hostRead (0x3200 + k) = (s.tab.log.read k).setWidth 32) ∧
    (∀ k (h : k < s.outq.length), s.hostRead (0x4000 + k) = if s.outq[k] then 1 else 0) ∧
    (∀ n, 0x030 ≤ n ∧ n < 0x100 ∨ 0x110 ≤ n ∧ n < 0x1000 ∨ 0x2000 ≤ n ∧ n < 0x3000 ∨
      0x3300 ≤ n ∧ n < 0x4000 ∨ 0x4000 + s.outq.length ≤ n → s.hostRead n = 0)

/-! ## Whole-machine rules -/

/-- The invariant of the block (latch, field tables, code, decoder) holds after reset. -/
def Obligations.ResetSatisfiesTheInvariant : Prop := State.reset.Inv

/-- Every step, whatever the host's event, keeps the invariant of the block: the latch holds a cause of
R261 or nothing, the tables are those of a primitive polynomial, the code's parameters and table are in
range, and a ready decoder's buffers, counters and emitted bits are as R21 to R27, R161 and R183
say. -/
def Obligations.EveryStepKeepsTheInvariant : Prop :=
  ∀ s t : State, s.Inv → step s = .next t → t.Inv

/-- R12: a command writes no scalar register but the one that its field `d` names as destination. -/
def Obligations.OnlyTheNamedScalarRegisterIsWritten : Prop :=
  ∀ (i : Instr) (s t : State) (r : XReg), exec i s = .next t → scalarDest i ≠ some r →
    t.getX r = s.getX r

/-- R30: a command writes no polynomial register but the one it names as destination, and only
`P.ROOTS` writes `SCR` and `RSEL` (R32). -/
def Obligations.OnlyTheNamedPolynomialRegisterIsWritten : Prop :=
  ∀ (i : Instr) (s t : State), exec i s = .next t →
    (∀ r : PReg, polyDest i ≠ some r → t.getP r = s.getP r) ∧
    ((∀ d a, i ≠ .pRoots d a) → t.scr0 = s.scr0 ∧ t.scr1 = s.scr1 ∧ t.rsel = s.rsel)

/-- R18: once `FVALID` is 1 no command writes `PRIM`, `EXP` or `LOG` until reset. -/
def Obligations.BuiltTablesNeverChangeUntilReset : Prop :=
  ∀ s t : State, s.fvalid = true → s.host.head? ≠ some .reset → step s = .next t →
    t.fvalid = true ∧ t.prim = s.prim ∧ t.tab = s.tab

/-- R15: `OVF` is sticky: only `VT.INIT` and `VT.RESET` clear it, and only a trellis step sets it. -/
def Obligations.OverflowFlagIsSticky : Prop :=
  ∀ (i : Instr) (s t : State), exec i s = .next t →
    (s.ovf = true → i ≠ .vtInit → (∀ a, i ≠ .vtReset a) → t.ovf = true) ∧
    (s.ovf = false → i ≠ .vtSteps → (∀ a, i ≠ .vtSteph a) → t.ovf = false)

/-- R36: a `VT.CFG` that completes (a rate in 2..8 and an order in 2..16) ends in `CONFIGURED`, a
`VT.INIT` that completes (in a configured block) in `READY`; these commands where they fault, and every
other command, leave `VSTATE` as it was. -/
def Obligations.OnlyCfgAndInitChangeTheLifecycle : Prop :=
  ∀ (i : Instr) (s : State), ∃ t, exec i s = .next t ∧ t.vstate = nextLifecycle s i

/-- R300: `GF.*`, `P.*`, `BM.HARD` and `ENC.*` commands touch no decoder state. -/
def Obligations.FieldPolynomialAndEncoderCommandsLeaveTheDecoder : Prop :=
  ∀ (i : Instr) (s t : State), besideDecode i = true → exec i s = .next t → SameDecoder s t

/-! ## Scalar moves -/

/-- R11: every scalar register is an ordinary register: it holds what is written to it, and a write
leaves the others alone. -/
def Obligations.EveryScalarRegisterHoldsWhatIsWritten : Prop :=
  ∀ (s : State) (d r : XReg) (v : Word),
    (s.setX d v).getX d = v ∧ (r ≠ d → (s.setX d v).getX r = s.getX r)

/-- R210 to R213: `NOP` changes nothing; `LI` loads the sign-extended immediate; `LIH` replaces the upper
half; `MOV` copies. Nothing else changes. -/
def Obligations.ScalarMovesWriteTheirDestinationOnly : Prop :=
  ∀ (d a : XReg) (imm : BitVec 16) (s : State),
    exec .nop s = .next s ∧
    (∃ v : Word, exec (.li d imm) s = .next { s with x := s.x.write d v } ∧
      v.toNat = if imm.toNat < 0x8000 then imm.toNat else 0xFFFF0000 + imm.toNat) ∧
    (∃ v : Word, exec (.lih d imm) s = .next { s with x := s.x.write d v } ∧
      v.toNat = 65536 * imm.toNat + xv s d % 65536) ∧
    exec (.mov d a) s = .next { s with x := s.x.write d (s.getX a) }

/-! ## The field unit -/

/-- R95: `GF.BUILD` accepts exactly the operands under which alpha has order 255 (the powers 1..254
pairwise distinct, none 1, the power 255 equal to 1), and they are the 16 values of the rule. -/
def Obligations.SixteenPolynomialsArePrimitive : Prop :=
  ∀ v : Word, (¬ primRefused v ↔ Primitive v.toNat) ∧
    (Primitive v.toNat ↔ v.toNat ∈ [0x11D, 0x12B, 0x12D, 0x14D, 0x15F, 0x163, 0x165, 0x169, 0x171,
      0x187, 0x18D, 0x1A9, 0x1C3, 0x1CF, 0x1E7, 0x1F5])

/-- R94: `GF.BUILD` faults once the tables are built, and on an operand that is not primitive; else it
writes `EXP` as the powers of alpha, `LOG` as their inverse on 1..255 with `LOG[0] = 0`, `PRIM` and
`FVALID`, and nothing else. -/
def Obligations.GfBuildBuildsTheTablesOfAPrimitivePolynomial : Prop :=
  ∀ (a : XReg) (s : State),
    (s.fvalid = true → Faults (.gfBuild a) s .sequence) ∧
    (s.fvalid = false → ¬ Primitive (xv s a) → Faults (.gfBuild a) s .primitivePoly) ∧
    (s.fvalid = false → Primitive (xv s a) →
      ∃ t : Tables,
        exec (.gfBuild a) s =
          .next { s with tab := t, prim := BitVec.ofNat 9 (xv s a), fvalid := true } ∧
        (∀ i < 512, (t.exp.read i).toNat = scaled (xv s a) 1 i) ∧
        (∀ i, 1 ≤ i → i ≤ 255 → (t.log.read (t.exp.read i).toNat).toNat = i) ∧
        t.log.read 0 = 0)

/-- R112: the field axioms. Every element is its own inverse under `GF.ADD` and `GF.SUB`; and the tables of
every primitive polynomial satisfy the laws of the product, the quotient and the logarithm. -/
def Obligations.BuiltTablesSatisfyTheFieldAxioms : Prop :=
  (∀ (d x : XReg) (s : State), s.fvalid = true → xv s x ≤ 255 →
    exec (.gfAdd d x x) s = .next { s with x := s.x.write d 0 } ∧
    exec (.gfSub d x x) s = .next { s with x := s.x.write d 0 }) ∧
  ∀ p : BitVec 9, Primitive p.toNat → ∀ a b c : Byte,
    let t := buildTables p
    gfMul t a b = gfMul t b a ∧ (a ≠ 0 → gfMul t a (gfDiv t b a) = b) ∧
    (a ≠ 0 → t.exp.read (t.log.read a.toNat).toNat = a) ∧
    gfMul t (gfMul t a b) c = gfMul t a (gfMul t b c) ∧
    gfMul t a (b ^^^ c) = gfMul t a b ^^^ gfMul t a c ∧ gfMul t a 1 = a ∧
    (a ≠ 0 → gfDiv t a a = 1) ∧
    (∀ i, 1 ≤ i → i ≤ 255 → (t.log.read (t.exp.read i).toNat).toNat = i) ∧
    (t.log.read (t.exp.read 0).toNat).toNat = 255

/-- R103 with R96: in a state whose tables are built, `GF.MUL` writes the product in GF(2^8) modulo
`PRIM`, the carry-less product reduced, zero-extended; nothing else changes. -/
def Obligations.GfMulWritesTheReducedCarrylessProduct : Prop :=
  ∀ (d a b : XReg) (s : State), s.FieldOk → s.fvalid = true → xv s a ≤ 255 → xv s b ≤ 255 →
    exec (.gfMul d a b) s = .next { s with
      x := s.x.write d (BitVec.ofNat 32 (fieldProduct s.prim.toNat (xv s a) (xv s b))) }

/-- R101, R102, R105: on elements, `GF.ADD` and `GF.SUB` write the xor, and `GF.SUM` the element for an
odd 32-bit count and 0 for an even one; nothing else changes. -/
def Obligations.GfAddSubAndSumWriteTheirResult : Prop :=
  ∀ (d a b : XReg) (s : State), s.fvalid = true → xv s a ≤ 255 →
    (xv s b ≤ 255 →
      exec (.gfAdd d a b) s = .next { s with x := s.x.write d (s.getX a ^^^ s.getX b) } ∧
      exec (.gfSub d a b) s = .next { s with x := s.x.write d (s.getX a ^^^ s.getX b) }) ∧
    exec (.gfSum d a b) s =
      .next { s with x := s.x.write d (if xv s b % 2 = 1 then s.getX a else 0) }

/-- R96, R97, R103, R104 by the tables: on elements, `GF.MUL` writes 0 for a zero operand and else
`EXP[LOG[a] + LOG[b]]`; `GF.DIV`, for a non-zero divisor, 0 for a zero dividend and else
`EXP[255 + LOG[a] − LOG[b]]`; `GF.DIV` by 0 faults also when the dividend is 0. -/
def Obligations.GfMulAndDivReadTheTables : Prop :=
  ∀ (d a b : XReg) (s : State), s.fvalid = true → xv s a ≤ 255 → xv s b ≤ 255 →
    exec (.gfMul d a b) s = .next { s with
      x := s.x.write d
        (if xv s a = 0 ∨ xv s b = 0 then 0
       else ext8 (s.tab.exp.read
        ((s.tab.log.read (xv s a)).toNat + (s.tab.log.read (xv s b)).toNat))) } ∧
    (xv s b ≠ 0 → exec (.gfDiv d a b) s = .next { s with
      x := s.x.write d
        (if xv s a = 0 then 0
       else ext8 (s.tab.exp.read
        (255 + (s.tab.log.read (xv s a)).toNat - (s.tab.log.read (xv s b)).toNat))) }) ∧
    (xv s b = 0 → Faults (.gfDiv d a b) s .divideByZero)

/-- R99, R106 to R108: `GF.POW` writes `EXP[(LOG[a] × n) mod 255]` for the signed exponent, with the
floor modulus; `GF.LOG` and `GF.EXP` write the table entry. -/
def Obligations.GfPowLogAndExpReadTheTables : Prop :=
  ∀ (d a b : XReg) (s : State), s.fvalid = true →
    (xv s a ≤ 255 →
      exec (.gfPow d a b) s = .next { s with
        x := s.x.write d
          (ext8 (s.tab.exp.read
          (Int.fmod ((s.tab.log.read (xv s a)).toNat * (s.getX b).toInt) 255).toNat)) } ∧
      exec (.gfLog d a) s =
        .next { s with x := s.x.write d (ext8 (s.tab.log.read (xv s a))) }) ∧
    (xv s a ≤ 511 →
      exec (.gfExp d a) s = .next { s with x := s.x.write d (ext8 (s.tab.exp.read (xv s a))) })

/-- R99: with built tables, `gf_pow` of a non-zero element is its power in the field (1 at exponent 0,
one more product for each exponent more, and the inverse at the negated exponent), and of 0 it is 1
for every exponent. -/
def Obligations.GfPowIsThePowerInTheField : Prop :=
  ∀ p : BitVec 9, Primitive p.toNat → ∀ (a : Byte) (n : Int),
    let t := buildTables p
    (a ≠ 0 → gfPow t a 0 = 1 ∧ gfPow t a (n + 1) = gfMul t (gfPow t a n) a ∧
      gfMul t (gfPow t a n) (gfPow t a (-n)) = 1) ∧
    gfPow t 0 n = Config.gfPowZeroBase

/-- R100, R109, R110: `GF.MULLOG` and `GF.DIVLOG` write the sum and the difference of two logarithms with
255 taken off once where it exceeds 255; no zero test. -/
def Obligations.GfMullogAndDivlogReduceOnce : Prop :=
  ∀ (d a b : XReg) (s : State), s.fvalid = true → xv s a ≤ 255 → xv s b ≤ 255 →
    exec (.gfMullog d a b) s = .next { s with
      x := s.x.write d
        (BitVec.ofNat 32 (if 255 < xv s a + xv s b then xv s a + xv s b - 255 else xv s a + xv s b)) } ∧
    exec (.gfDivlog d a b) s = .next { s with
      x := s.x.write d
        (BitVec.ofNat 32 (if xv s b < xv s a then xv s a - xv s b else 255 + xv s a - xv s b)) }

/-! ## The polynomial unit -/

/-- R122 to R127, R138: the data movement commands. Each writes the order or the coefficients that its
rule lists, of the destination, and nothing else. -/
def Obligations.PolynomialMovesWriteWhatTheirRulesList : Prop :=
  ∀ (s : State) (d a : PReg) (x y : XReg) (n : Nat) (idx val : Byte),
    (n ≤ 255 → exec (.pSetord d n) s = .next { s with
      p := s.p.write d { s.getP d with ord := BitVec.ofNat 8 n } }) ∧
    exec (.pGetord x a) s = .next { s with x := s.x.write x (ext8 (s.getP a).ord) } ∧
    (xv s x ≤ 255 → xv s y ≤ 255 → exec (.pLdc d x y) s = .next { s with
      p := s.p.write d { s.getP d with c := (s.getP d).c.write (xv s x) (BitVec.ofNat 8 (xv s y)) } }) ∧
    (xv s y ≤ 255 → exec (.pStc x a y) s = .next { s with
      x := s.x.write x (ext8 ((s.getP a).c.read (xv s y))) }) ∧
    exec (.pClr d) s = .next { s with p := s.p.write d { s.getP d with c := Mem.fill 256 0 } } ∧
    exec (.pMov d a) s = .next { s with p := s.p.write d (s.getP a) } ∧
    exec (.pLdci d idx val) s = .next { s with
      p := s.p.write d { s.getP d with c := (s.getP d).c.write idx.toNat val } }

/-- R128: `P.MUL` writes, at indices 0 to the destination's order, the coefficients of the product; the
destination's order, its higher coefficients and everything else are unchanged. -/
def Obligations.PMulIsTheTruncatedProduct : Prop :=
  ∀ (d a b : PReg) (s : State), s.fvalid = true → d ≠ a → d ≠ b →
    ∃ q : PolyReg, exec (.pMul d a b) s = .next { s with p := s.p.write d q } ∧
      q.ord = (s.getP d).ord ∧
      ∀ k < 256, q.coef k =
        if k ≤ (s.getP d).deg then productCoef s.tab (s.getP a) (s.getP b) k else (s.getP d).coef k

/-- R129: with built tables, `P.MOD` leaves a remainder of the dividend: the dividend is a quotient
times the divisor plus the coefficients left below the divisor's order; those from there to the
dividend's order are 0, and the rest of the destination and of the state is unchanged. -/
def Obligations.PModLeavesTheRemainderOfTheDivision : Prop :=
  ∀ (d a b : PReg) (s : State), s.FieldOk → s.fvalid = true → d ≠ b →
    (s.getP a).deg ≤ (s.getP d).deg → (s.getP b).coef (s.getP b).deg ≠ 0 →
    ∃ (q : PolyReg) (quot : Nat → Byte),
      exec (.pMod d a b) s = .next { s with p := s.p.write d q } ∧ q.ord = (s.getP d).ord ∧
      (∀ k < 256, (s.getP a).deg < k → q.coef k = (s.getP d).coef k) ∧
      (∀ k, (s.getP b).deg ≤ k → k ≤ (s.getP a).deg → q.coef k = 0) ∧
      (∀ i, (s.getP a).deg < (s.getP b).deg + i → quot i = 0) ∧
      (∀ k ≤ (s.getP a).deg, (s.getP a).coef k =
        (if k < (s.getP b).deg then q.coef k else 0) ^^^
          xorSum (k + 1) fun i =>
            if k - i ≤ (s.getP b).deg then gfMul s.tab (quot i) ((s.getP b).coef (k - i)) else 0)

/-- R130: `P.DER` writes the formal derivative and its order; the constant's derivative is 0 of order
0. Higher coefficients of the destination are unchanged. -/
def Obligations.PDerIsTheFormalDerivative : Prop :=
  ∀ (d a : PReg) (s : State),
    (d = a → Faults (.pDer d a) s .aliased) ∧
    (d ≠ a → ∃ q : PolyReg, exec (.pDer d a) s = .next { s with p := s.p.write d q } ∧
      q.ord.toNat = (s.getP a).deg - 1 ∧
      ∀ k < 256, q.coef k =
        if k ≤ (s.getP a).deg - 1 then
          (if (s.getP a).deg ≠ 0 ∧ k % 2 = 0 then (s.getP a).coef (k + 1) else 0)
        else (s.getP d).coef k)

/-- R131: with built tables, `P.EVAL` writes the value of the polynomial at the element: the xor of the
coefficients times the powers of the element, with `0^0 = 1`, which is Horner's value. -/
def Obligations.PEvalIsTheValueOfThePolynomial : Prop :=
  ∀ (d : XReg) (a : PReg) (b : XReg) (s : State), s.FieldOk → s.fvalid = true → xv s b ≤ 255 →
    ∃ r : Byte, exec (.pEval d a b) s = .next { s with x := s.x.write d (ext8 r) } ∧
      (r = xorSum ((s.getP a).deg + 1) fun i =>
        gfMul s.tab ((s.getP a).coef i) (elementPower s.tab (BitVec.ofNat 8 (xv s b)) i)) ∧
      r = horner s.tab (s.getP a) (BitVec.ofNat 8 (xv s b)) ((s.getP a).deg + 1) 0

/-- R121, R132: `P.POWS` writes, to the destination's order, the power table of the element: zeros for
the element 0, else 255 and then the logarithm of each next power; with built tables the entries are
also the closed form of R121 and index the powers of the element. -/
def Obligations.PPowsBuildsThePowerTable : Prop :=
  ∀ (d : PReg) (a : XReg) (s : State), s.fvalid = true → xv s a ≤ 255 →
    ∃ q : PolyReg, exec (.pPows d a) s = .next { s with p := s.p.write d q } ∧
      q.ord = (s.getP d).ord ∧
      (∀ k < 256, (s.getP d).deg < k → q.coef k = (s.getP d).coef k) ∧
      (xv s a = 0 → ∀ k ≤ (s.getP d).deg, q.coef k = 0) ∧
      (xv s a ≠ 0 → q.coef 0 = 255 ∧
        (∀ k, 1 ≤ k → k ≤ (s.getP d).deg →
          q.coef k = mulLog (q.coef (k - 1)) (s.tab.log.read (xv s a))) ∧
        (s.FieldOk → ∀ k ≤ (s.getP d).deg,
          ((q.coef k).toNat : Int) =
            Int.fmod ((k : Int) * (s.tab.log.read (xv s a)).toNat - 1) 255 + 1 ∧
          s.tab.exp.read (q.coef k).toNat =
            elementPower s.tab (BitVec.ofNat 8 (xv s a)) k))

/-- R133 to R135: `P.EVALP` and `P.EVALL` write the xor that their rules give, whatever bytes the power
table holds; `P.TOLOG` writes the order and the logarithms, also in place. -/
def Obligations.PEvalpEvallAndTologFollowTheirFormulas : Prop :=
  ∀ (s : State) (x : XReg) (d a b : PReg), s.fvalid = true →
    ((s.getP a).deg ≤ (s.getP b).deg →
      exec (.pEvalp x a b) s = .next { s with x := s.x.write x (ext8
        (if (s.getP b).coef 0 = 0 then (s.getP a).coef 0
         else xorSum ((s.getP a).deg + 1) fun i =>
          if (s.getP a).coef i = 0 then 0
          else s.tab.exp.read ((s.tab.log.read ((s.getP a).coef i).toNat).toNat
            + ((s.getP b).coef i).toNat))) } ∧
      exec (.pEvall x a b) s = .next { s with x := s.x.write x (ext8
        (if (s.getP b).coef 0 = 0 then
          (if (s.getP a).coef 0 = 0 then 0 else s.tab.exp.read ((s.getP a).coef 0).toNat)
         else xorSum ((s.getP a).deg + 1) fun i =>
          if (s.getP a).coef i = 0 then 0
          else s.tab.exp.read (((s.getP a).coef i).toNat + ((s.getP b).coef i).toNat))) }) ∧
    ∃ q : PolyReg, exec (.pTolog d a) s = .next { s with p := s.p.write d q } ∧
      q.ord = (s.getP a).ord ∧
      ∀ k < 256, q.coef k =
        if k ≤ (s.getP a).deg then s.tab.log.read ((s.getP a).coef k).toNat else (s.getP d).coef k

/-- R136: the three evaluators agree: for every polynomial, element, and power table of the element to
an order not below the polynomial's, evaluation, evaluation by powers, and evaluation of the log form
give the same value. -/
def Obligations.TheThreeEvaluatorsAgree : Prop :=
  ∀ p : BitVec 9, Primitive p.toNat → ∀ (q w l : PolyReg) (v : Byte), q.deg ≤ w.deg →
    let t := buildTables p
    polyEval t q v = polyEvalPowers t q (polyPows t v w) ∧
    polyEval t q v = polyEvalLog t (polyToLog t q l) (polyPows t v w)

/-- R137: with built tables, `P.ROOTS` writes the monic polynomial whose roots the source lists, with
its order; `RSEL` is the parity of one less than their number; `SCR[RSEL]` holds the product; the other
buffer holds, for two roots or more, the product of all but the last, and for one root (where the other
is `SCR[1]`) what it held. -/
def Obligations.PRootsMultipliesTheLinearFactors : Prop :=
  ∀ (d a : PReg) (s : State), s.FieldOk → s.fvalid = true → d ≠ a → (s.getP a).deg < 255 →
    let n := (s.getP a).deg + 1
    let m := monicProduct s.tab (s.getP a)
    ∃ q b0 b1 : PolyReg,
      exec (.pRoots d a) s = .next { s with
        p := s.p.write d q, scr0 := b0, scr1 := b1, rsel := decide ((n - 1) % 2 = 1) } ∧
      q.deg = n ∧ q.coef n = 1 ∧ (∀ k ≤ n, q.coef k = m n k) ∧
      (∀ k < 256, n < k → q.coef k = (s.getP d).coef k) ∧
      (if (n - 1) % 2 = 1 then b1 else b0).deg = n ∧
      (∀ k ≤ n, (if (n - 1) % 2 = 1 then b1 else b0).coef k = m n k) ∧
      (2 ≤ n → (if (n - 1) % 2 = 1 then b0 else b1).deg = n - 1 ∧
        ∀ k ≤ n - 1, (if (n - 1) % 2 = 1 then b0 else b1).coef k = m (n - 1) k) ∧
      (n = 1 → b1 = s.scr1)

/-- The polynomial that `P.ROOTS` builds evaluates to 0 at each of the roots listed: the machine's own
`P.EVAL` of it gives 0 there. -/
def Obligations.TheBuiltPolynomialVanishesAtItsRoots : Prop :=
  ∀ (d a : PReg) (s t : State), s.FieldOk → s.fvalid = true → d ≠ a → (s.getP a).deg < 255 →
    exec (.pRoots d a) s = .next t →
    ∀ (i : Nat) (x y : XReg), i ≤ (s.getP a).deg → t.getX y = ext8 ((s.getP a).coef i) →
      exec (.pEval x d y) t = .next { t with x := t.x.write x 0 }

/-! ## The branch-metric unit -/

/-- R152 to R154: `BM.HARD` writes the number of bits in which two registers differ; `BM.SOFTL` and
`BM.SOFTQ`, in a configured block and for a symbol in range, the linear and the quadratic distance of
the symbol from `SYM`, whatever `SOFTMODE` is. -/
def Obligations.BranchMetricsWriteTheDistances : Prop :=
  ∀ (d a b : XReg) (s : State),
    exec (.bmHard d a b) s = .next { s with
      x := s.x.write d (BitVec.ofNat 32 (bitCount (xv s a ^^^ xv s b))) } ∧
    (s.vstate ≠ .unconf → s.rate.toNat ≤ 8 → xv s a < 2 ^ s.rate.toNat →
      exec (.bmSoftl d a) s = .next { s with
        x := s.x.write d (BitVec.ofNat 32 (linearDistance s (xv s a))) } ∧
      exec (.bmSoftq d a) s = .next { s with
        x := s.x.write d (BitVec.ofNat 32 (quadraticDistance s (xv s a))) })

/-- R155, R156: `BM.SYM` and `BM.SYMI` write one soft symbol, in every `VSTATE`, and fault on an index
above 7 or a value above 255. -/
def Obligations.SymbolCommandsWriteOneSoftSymbol : Prop :=
  ∀ (j n : Nat) (a : XReg) (s : State),
    (j ≤ 7 → xv s a ≤ 255 →
      exec (.bmSym j a) s = .next { s with sym := s.sym.write j (BitVec.ofNat 8 (xv s a)) }) ∧
    (7 < j ∨ 255 < xv s a → Faults (.bmSym j a) s .operandRange) ∧
    (j ≤ 7 → n ≤ 255 →
      exec (.bmSymi j n) s = .next { s with sym := s.sym.write j (BitVec.ofNat 8 n) }) ∧
    (7 < j ∨ 255 < n → Faults (.bmSymi j n) s .operandRange)

/-- R158: where every used soft symbol is 0 or 255 the linear distance is 255 times the Hamming distance
and the quadratic one an eighth of 65025 times it, rounded down. -/
def Obligations.SoftDistancesOfHardSymbolsFollowTheHammingDistance : Prop :=
  ∀ (s : State) (o r : Nat), s.rate.toNat ≤ 8 → o < 2 ^ s.rate.toNat → r < 2 ^ s.rate.toNat →
    (∀ j < s.rate.toNat, s.sym.read j = if r.testBit j then 255 else 0) →
    (softLin s.sym s.rate.toNat o).toNat = 255 * (hamming o (BitVec.ofNat 32 r)).toNat ∧
    (softQuad s.sym s.rate.toNat o).toNat = 65025 * (hamming o (BitVec.ofNat 32 r)).toNat / 8

/-! ## The trellis unit: configuration and lifecycle -/

/-- R170, R172: `VT.POLY` writes one generator polynomial, all 32 bits, and faults on an index above 7;
`VT.MODE` selects the soft distance, and faults above 1. Both in every `VSTATE`. -/
def Obligations.PolyAndModeWriteTheirRegister : Prop :=
  ∀ (j n : Nat) (a : XReg) (s : State),
    (j ≤ 7 → exec (.vtPoly j a) s = .next { s with poly := s.poly.write j (s.getX a) }) ∧
    (7 < j → Faults (.vtPoly j a) s .operandRange) ∧
    (exec (.vtMode 0) s = .next { s with softmode := false }) ∧
    (exec (.vtMode 1) s = .next { s with softmode := true }) ∧
    (1 < n → Faults (.vtMode n) s .operandRange)

/-- R171: `VT.CFG` refuses a rate outside 2..8, then an order outside 2..16; else it writes both, builds
the output table (bit `j` of entry `v` the parity of `v and POLY[j]`), clears `ESR` and ends in
`CONFIGURED`, in every `VSTATE`. That nothing else changes, from `READY` too (the decoder's buffers,
parameters, counters and `OUTQ` stay), is THE MODEL'S READING of R171's list of writes and of R306 (log
entry 18). -/
def Obligations.CfgBuildsTheOutputTable : Prop :=
  ∀ (a b : XReg) (s : State),
    (xv s a < 2 ∨ 8 < xv s a → Faults (.vtCfg a b) s .rate) ∧
    (2 ≤ xv s a → xv s a ≤ 8 → xv s b < 2 ∨ 16 < xv s b → Faults (.vtCfg a b) s .order) ∧
    (2 ≤ xv s a → xv s a ≤ 8 → 2 ≤ xv s b → xv s b ≤ 16 →
      ∃ out : List Byte,
        exec (.vtCfg a b) s = .next { s with
          rate := BitVec.ofNat 4 (xv s a), order := BitVec.ofNat 5 (xv s b), outtab := out,
          esr := 0, vstate := .configured } ∧
        out.length = 2 ^ xv s b ∧
        ∀ v < 2 ^ xv s b, ∀ j < 8, (out.getD v 0).getLsbD j =
          (decide (j < xv s a) && decide (bitCount (v &&& (s.poly.read j).toNat) % 2 = 1)))

/-- R173: `VT.INIT` in a configured block gives the decoder its parameters and cleared buffers of the
code's size, empties `OUTQ`, clears `OVF` and ends in `READY`. -/
def Obligations.InitMakesTheDecoderReady : Prop :=
  ∀ s : State,
    (s.vstate = .unconf → Faults .vtInit s .sequence) ∧
    (s.vstate ≠ .unconf → exec .vtInit s = .next { s with
      tbmin := BitVec.ofNat 16 (5 * s.order.toNat)
      tbburst := BitVec.ofNat 16 (15 * s.order.toNat)
      cap := BitVec.ofNat 16 (5 * s.order.toNat + 15 * s.order.toNat)
      rint := BitVec.ofNat 16 (65535 / (s.rate.toNat * 255))
      pm0 := List.replicate (2 ^ s.order.toNat) 0
      pm1 := List.replicate (2 ^ s.order.toNat) 0
      pmsel := false
      dist := List.replicate (2 ^ s.rate.toNat) 0
      hist := List.replicate (5 * s.order.toNat + 15 * s.order.toNat)
        (List.replicate (2 ^ (s.order.toNat - 1)) false)
      hidx := 0, hlen := 0, rcnt := 0, slice := 0, sets := 0, outq := [], ovf := false
      vstate := .ready })

/-- R174: `VT.RESET` starts a decode: in a ready decoder and for `2 × ORDER − 2` slices or more it clears
both banks, the counters, `OUTQ` and `OVF` and writes `SETS`; `HIST`, `DIST` and everything else
stay. -/
def Obligations.VtResetStartsADecode : Prop :=
  ∀ (a : XReg) (s : State),
    (s.vstate ≠ .ready → Faults (.vtReset a) s .sequence) ∧
    (s.vstate = .ready → xv s a < 2 * s.order.toNat - 2 → Faults (.vtReset a) s .length) ∧
    (s.vstate = .ready → 2 * s.order.toNat - 2 ≤ xv s a → exec (.vtReset a) s = .next { s with
      pm0 := List.replicate (2 ^ s.order.toNat) 0
      pm1 := List.replicate (2 ^ s.order.toNat) 0
      pmsel := false, hidx := 0, hlen := 0, rcnt := 0, slice := 0, sets := s.getX a
      outq := [], ovf := false })

/-! ## The trellis unit: slices -/

/-- R22, R157, R175, R176, R179: a trellis step with a slice left completes; it sets the distance table,
flips `PMSEL`, counts the slice and writes, of the trellis, only the lower half of the write bank, one
history slot, the history's counters, `OUTQ` and `OVF`. Of the two banks it reads only the read bank:
with another list of the same length as write bank, everything it writes outside the banks, and every
metric that the slice's phase writes, is the same. -/
def Obligations.ATrellisStepWritesOnlyTheDecoder : Prop :=
  ∀ (i : Instr) (s : State) (dist : List Metric), s.rate.toNat ≤ 8 → SliceLeft s → 1 ≤ s.order.toNat →
    StepsWith i s dist →
    ∃ t, exec i s = .next t ∧
      t = { s with
        dist := dist, pmsel := !s.pmsel, slice := s.slice + 1, pm0 := t.pm0, pm1 := t.pm1
        ovf := t.ovf, hist := t.hist, hidx := t.hidx, hlen := t.hlen, rcnt := t.rcnt
        outq := t.outq } ∧
      (∀ k, writePM t k = readPM s k) ∧
      (∀ k, states s ≤ k → readPM t k = writePM s k) ∧
      (∀ k, k ≠ s.hidx.toNat → t.hist[k]? = s.hist[k]?) ∧
      ∀ w : List Metric, w.length = (if s.pmsel then s.pm0 else s.pm1).length →
        ∃ t', exec i (withWriteBank s w) = .next t' ∧
          t' = { t with pm0 := t'.pm0, pm1 := t'.pm1 } ∧
          ∀ k, WrittenState s k → readPM t' k = readPM t k

/-- R164: a warm-up slice (`SLICE ≤ ORDER − 2`) adds the branch distance of each of the `2^(SLICE+1)`
active register values to the metric of its one predecessor, modulo 2^16, sets `OVF` where a sum
exceeds 65535, and leaves the other metrics, the history and `OUTQ` as they were. -/
def Obligations.WarmUpSlicesAddWithoutComparing : Prop :=
  ∀ (i : Instr) (s : State) (dist : List Metric), s.CodeOk → s.DecoderOk → SliceLeft s →
    StepsWith i s dist → s.slice.toNat + 2 ≤ s.order.toNat →
    ∃ t, exec i s = .next t ∧
      (∀ j < 2 ^ (s.slice.toNat + 1),
        readPM t j = (branchOf s dist j + readPM s (j / 2)) % 65536) ∧
      (∀ j, 2 ^ (s.slice.toNat + 1) ≤ j → readPM t j = writePM s j) ∧
      (t.ovf = true ↔ s.ovf = true ∨
        ∃ j < 2 ^ (s.slice.toNat + 1), 65535 < branchOf s dist j + readPM s (j / 2)) ∧
      t.hist = s.hist ∧ t.hidx = s.hidx ∧ t.hlen = s.hlen ∧ t.rcnt = s.rcnt ∧ t.outq = s.outq

/-- R165, R166, R168: an inner or tail slice that does not renormalise counts in `RCNT` and keeps, at
every state that is a multiple of `skip`, the lesser of the two wrapped sums and records which it was (0
on equality); the other states keep their stale metric and bit; `OVF` is set where one of the sums
exceeds 65535. -/
def Obligations.InnerAndTailSlicesAddCompareSelect : Prop :=
  ∀ (i : Instr) (s : State) (dist : List Metric), s.CodeOk → s.DecoderOk → SliceLeft s →
    StepsWith i s dist → s.order.toNat - 1 ≤ s.slice.toNat → s.rcnt.toNat + 1 ≠ s.rint.toNat →
    ∃ t, exec i s = .next t ∧ t.rcnt.toNat = s.rcnt.toNat + 1 ∧
      (∀ st < states s,
        (skipOf s ∣ st → readPM t st = survivorOf s dist st) ∧
        (¬ skipOf s ∣ st → readPM t st = writePM s st)) ∧
      RecordsSurvivors s t dist ∧ SetsOverflow s t dist

/-- R165, R166, R168, R169, R177: the `RINT`-th inner or tail slice clears `RCNT` and subtracts the metric
of the lowest-numbered state of least metric from every trellis state, modulo 2^16, the stale ones too;
the survivor bits of `HIST[HIDX]` and `OVF` are those of any inner or tail slice. -/
def Obligations.RenormalisationSubtractsTheLeastMetric : Prop :=
  ∀ (i : Instr) (s : State) (dist : List Metric), s.CodeOk → s.DecoderOk → SliceLeft s →
    StepsWith i s dist → s.order.toNat - 1 ≤ s.slice.toNat → s.rcnt.toNat + 1 = s.rint.toNat →
    ∃ t b, exec i s = .next t ∧ LowestLeast s dist b ∧ t.rcnt = 0 ∧
      (∀ st < states s,
        (skipOf s ∣ st → readPM t st = survivorOf s dist st - survivorOf s dist b) ∧
        (¬ skipOf s ∣ st →
          readPM t st = (writePM s st + 65536 - survivorOf s dist b) % 65536)) ∧
      RecordsSurvivors s t dist ∧ SetsOverflow s t dist

/-- R168, R178: an inner or tail slice advances the ring and counts the slot; a full ring (`HLEN + 1 =
CAP`) emits the oldest `TBBURST` bits of the path back from the lowest-numbered state of least metric,
oldest first, and keeps `TBMIN`; otherwise nothing is emitted. -/
def Obligations.AFullRingEmitsOneBurst : Prop :=
  ∀ (i : Instr) (s : State) (dist : List Metric), s.CodeOk → s.DecoderOk → SliceLeft s →
    StepsWith i s dist → s.order.toNat - 1 ≤ s.slice.toNat →
    ∃ t, exec i s = .next t ∧ t.hidx.toNat = (s.hidx.toNat + 1) % s.cap.toNat ∧
      (s.hlen.toNat + 1 ≠ s.cap.toNat →
        t.outq = s.outq ∧ t.hlen.toNat = s.hlen.toNat + 1) ∧
      (s.hlen.toNat + 1 = s.cap.toNat →
        ∃ b burst, LowestLeast s dist b ∧ t.outq = s.outq ++ burst ∧
          burst = ((t.pathBits t.cap.toNat t.hidx.toNat b).drop t.tbmin.toNat).reverse ∧
          burst.length = s.tbburst.toNat ∧ t.hlen = s.tbmin)

/-- R184: `VT.FLUSH` at the last slice emits the whole remaining history, walked back from state 0,
oldest bit first, and empties it; before the last slice it faults. Nothing else changes. -/
def Obligations.FlushEmitsTheRemainingHistory : Prop :=
  ∀ s : State,
    (s.vstate ≠ .ready ∨ s.slice ≠ s.sets → Faults .vtFlush s .sequence) ∧
    (s.vstate = .ready → s.slice = s.sets → exec .vtFlush s = .next { s with
      outq := s.outq ++ (s.pathBits s.hlen.toNat s.hidx.toNat 0).reverse, hlen := 0 })

/-- R178: the path back from a state reads, slot by slot from the newest, the survivor bit of the state
it is in, and goes to the predecessor that bit names. -/
def Obligations.APathBackFollowsTheSurvivorBits : Prop :=
  ∀ (s : State) (n idx st : Nat), s.CodeOk → s.vstate ≠ .unconf → idx < s.cap.toNat →
    st < states s →
    let slot := if idx = 0 then s.cap.toNat - 1 else idx - 1
    let h := s.histBit slot st
    s.pathBits (n + 1) idx st = h :: s.pathBits n slot (st / 2 + if h then states s / 2 else 0)

/-- R183: the flush of a finished decode leaves exactly `SETS − ORDER + 1` bits in `OUTQ`, and never are
there more before. -/
def Obligations.AFinishedDecodeHasOneBitPerInnerOrTailSlice : Prop :=
  ∀ s : State, s.Inv → s.vstate = .ready → s.sets ≠ 0 →
    s.outq.length ≤ s.sets.toNat - s.order.toNat + 1 ∧
    (s.slice = s.sets → ∃ t, exec .vtFlush s = .next t ∧
      t.outq.length = s.sets.toNat - s.order.toNat + 1 ∧ t.hlen = 0)

/-! ## The trellis unit: read-out, and the encoder -/

/-- R185, R186: in a ready decoder `VT.QLEN` writes the length of `OUTQ` and `VT.RDQ` one of its bits,
removing nothing; an index at or above the length faults, and so do both when not ready. -/
def Obligations.QueueReadOutRemovesNothing : Prop :=
  ∀ (d a : XReg) (s : State),
    (s.vstate ≠ .ready → Faults (.vtQlen d) s .sequence ∧ Faults (.vtRdq d a) s .sequence) ∧
    (s.vstate = .ready →
      exec (.vtQlen d) s = .next { s with x := s.x.write d (BitVec.ofNat 32 s.outq.length) } ∧
      (s.outq.length ≤ xv s a → Faults (.vtRdq d a) s .operandRange) ∧
      (∀ h : xv s a < s.outq.length, exec (.vtRdq d a) s =
        .next { s with x := s.x.write d (if s.outq[xv s a] then 1 else 0) }))

/-- R188, R189: `VT.TAB` writes an entry of the output table and `VT.PM` one of the read bank, for an
index below `2^ORDER`; nothing else changes. -/
def Obligations.TableAndMetricReadOut : Prop :=
  ∀ (d a : XReg) (s : State), xv s a < 2 ^ s.order.toNat →
    (s.vstate ≠ .unconf → exec (.vtTab d a) s =
      .next { s with x := s.x.write d (ext8 (s.outtab.getD (xv s a) 0)) }) ∧
    (s.vstate = .ready → exec (.vtPm d a) s =
      .next { s with x := s.x.write d (BitVec.ofNat 32 (readPM s (xv s a))) })

/-- R201, R202: in a configured block `ENC.RST` clears `ESR`; `ENC.BIT` shifts a bit in at the low end of
the `ORDER`-bit register and writes the output symbol of the new register value; an operand above 1
faults. -/
def Obligations.TheEncoderShiftsAndLooksUp : Prop :=
  ∀ (d a : XReg) (s : State),
    (s.vstate = .unconf → Faults .encRst s .sequence ∧ Faults (.encBit d a) s .sequence) ∧
    (s.vstate ≠ .unconf →
      exec .encRst s = .next { s with esr := 0 } ∧
      (1 < xv s a → Faults (.encBit d a) s .operandRange) ∧
      (xv s a ≤ 1 → exec (.encBit d a) s = .next { s with
        esr := BitVec.ofNat 16 ((2 * s.esr.toNat + xv s a) % 2 ^ s.order.toNat)
        x := s.x.write d (ext8 (s.outtab.getD
          (BitVec.ofNat 16 ((2 * s.esr.toNat + xv s a) % 2 ^ s.order.toNat)).toNat 0)) }))
end

