-- ==== Sys2Proof/Laws/Mem.lean ====
section
/-! SUPPORT. What reading gives after each update of an internal memory, of a register file and of a
polynomial register. -/

namespace Sys2Proof

variable {α : Type} {n : Nat}

/-- Two memories with the same entries are equal. -/
theorem Mem.ext_read [Inhabited α] {m m' : Mem α n} (h : ∀ k < n, m.read k = m'.read k) : m = m' := by
  cases m with | mk c hc => cases m' with | mk c' hc' =>
  simp only [Mem.mk.injEq]
  apply List.ext_getElem (by omega)
  intro k hk hk'
  have := h k (by omega)
  simpa [Mem.read, List.getD, hk, hk'] using this

@[simp] theorem Mem.read_write_same [Inhabited α] (m : Mem α n) (k : Nat) (v : α) (h : k < n) :
    (m.write k v).read k = v := by
  simp [Mem.read, Mem.write, List.getD, m.size, h]

@[simp] theorem Mem.read_write_ne [Inhabited α] (m : Mem α n) {k j : Nat} (v : α) (h : k ≠ j) :
    (m.write k v).read j = m.read j := by
  simp [Mem.read, Mem.write, List.getD, h]

/-- Reading after a write, at any index inside the memory. -/
theorem Mem.read_write [Inhabited α] (m : Mem α n) (k j : Nat) (v : α) (h : k < n) :
    (m.write k v).read j = if k = j then v else m.read j := by
  by_cases e : k = j
  · subst e; simp [h]
  · simp [e]

@[simp] theorem Mem.get_write_same (m : Mem α n) (i : Fin n) (v : α) :
    (m.write i v).get i = v := by
  simp [Mem.get, Mem.write]

@[simp] theorem Mem.get_write_ne (m : Mem α n) {i j : Fin n} (v : α) (h : i ≠ j) :
    (m.write i v).get j = m.get j := by
  have : (i : Nat) ≠ j := fun e => h (Fin.ext e)
  simp [Mem.get, Mem.write, this]

@[simp] theorem Mem.read_fill [Inhabited α] (v : α) {k : Nat} (h : k < n) :
    (Mem.fill n v).read k = v := by
  simp [Mem.read, Mem.fill, List.getD, h]

@[simp] theorem Mem.get_fill (v : α) (i : Fin n) : (Mem.fill n v).get i = v := by
  simp [Mem.get, Mem.fill]

@[simp] theorem Mem.read_ofFn [Inhabited α] (f : Nat → α) {k : Nat} (h : k < n) :
    (Mem.ofFn n f).read k = f k := by
  simp [Mem.read, Mem.ofFn, List.getD, h]

@[simp] theorem Mem.read_update [Inhabited α] (m : Mem α n) (f : Nat → α → α) {k : Nat} (h : k < n) :
    (m.update f).read k = f k (m.read k) := by
  have hk : k < m.cells.length := by rw [m.size]; exact h
  simp [Mem.read, Mem.update, List.getD, hk]

/-- A loop up to 0 runs once. -/
@[simp] theorem forUpTo_zero {σ : Type} (init : σ) (f : σ → Nat → σ) :
    forUpTo 0 init f = f init 0 := rfl

/-- A loop up to `n + 1` runs once more. -/
theorem forUpTo_succ {σ : Type} (k : Nat) (init : σ) (f : σ → Nat → σ) :
    forUpTo (k + 1) init f = f (forUpTo k init f) (k + 1) := by
  simp [forUpTo, List.range_succ]

/-- What holds at the start of a loop and is kept by each turn holds at its end. -/
theorem forUpTo_induct {σ : Type} (P : σ → Prop) (k : Nat) (init : σ) (f : σ → Nat → σ) (h0 : P init)
    (hs : ∀ acc i, i ≤ k → P acc → P (f acc i)) : P (forUpTo k init f) := by
  unfold forUpTo
  have : ∀ (l : List Nat) (a : σ), (∀ i ∈ l, i ≤ k) → P a → P (l.foldl f a) := by
    intro l
    induction l with
    | nil => intro a _ ha; exact ha
    | cons x l ih =>
      intro a hl ha
      exact ih _ (fun i hi => hl i (List.mem_cons_of_mem _ hi)) (hs a x (hl x List.mem_cons_self) ha)
  exact this _ _ (fun i hi => by simpa [Nat.lt_succ_iff] using List.mem_range.mp hi) h0

end Sys2Proof

namespace Sys2Proof.Machine

open Sys2Proof

/-! ## Register files -/

@[simp] theorem State.getX_setX_same (s : State) (d : XReg) (v : Word) : (s.setX d v).getX d = v := by
  simp [State.getX, State.setX]

@[simp] theorem State.getX_setX_ne (s : State) {d r : XReg} (v : Word) (h : d ≠ r) :
    (s.setX d v).getX r = s.getX r := by
  simp [State.getX, State.setX, h]

@[simp] theorem State.getP_setP_same (s : State) (d : PReg) (q : PolyReg) : (s.setP d q).getP d = q := by
  simp [State.getP, State.setP]

@[simp] theorem State.getP_setP_ne (s : State) {d r : PReg} (q : PolyReg) (h : d ≠ r) :
    (s.setP d q).getP r = s.getP r := by
  simp [State.getP, State.setP, h]

/-! ## Polynomial registers -/

@[simp] theorem PolyReg.ord_withCoef (q : PolyReg) (k : Nat) (v : Byte) : (q.withCoef k v).ord = q.ord := rfl

@[simp] theorem PolyReg.ord_withCoefs (q : PolyReg) (n : Nat) (f : Nat → Byte) :
    (q.withCoefs n f).ord = q.ord := rfl

@[simp] theorem PolyReg.ord_withOrd (q : PolyReg) (n : Nat) : (q.withOrd n).ord = BitVec.ofNat 8 n := rfl

@[simp] theorem PolyReg.coef_withOrd (q : PolyReg) (n k : Nat) : (q.withOrd n).coef k = q.coef k := rfl

/-- A coefficient after one was written. -/
theorem PolyReg.coef_withCoef (q : PolyReg) {k : Nat} (j : Nat) (v : Byte) (h : k < 256) :
    (q.withCoef k v).coef j = if k = j then v else q.coef j :=
  Mem.read_write q.c k j v h

/-- A coefficient after coefficients 0..n were written. -/
theorem PolyReg.coef_withCoefs (q : PolyReg) (n : Nat) (f : Nat → Byte) {k : Nat} (h : k < 256) :
    (q.withCoefs n f).coef k = if k ≤ n then f k else q.coef k :=
  Mem.read_update q.c _ h

/-- An order is at most 255 (R13). -/
theorem PolyReg.deg_lt (q : PolyReg) : q.deg < 256 := q.ord.isLt

end Sys2Proof.Machine
end

