-- ==== Sys2Proof/Laws/State.lean ====
section
/-! SUPPORT. What each named update of the state leaves in each field: one lemma per field per update,
so that no proof unfolds a record update. -/

namespace Sys2Proof.Machine

open Sys2Proof

/-! ## `State.setX` -/

@[simp] theorem State.x_setX (s : State) (d : XReg) (v : Word) :
    (s.setX d v).x = s.x.write d v := rfl
@[simp] theorem State.p_setX (s : State) (d : XReg) (v : Word) :
    (s.setX d v).p = s.p := rfl
@[simp] theorem State.fault_setX (s : State) (d : XReg) (v : Word) :
    (s.setX d v).fault = s.fault := rfl
@[simp] theorem State.ovf_setX (s : State) (d : XReg) (v : Word) :
    (s.setX d v).ovf = s.ovf := rfl
@[simp] theorem State.cause_setX (s : State) (d : XReg) (v : Word) :
    (s.setX d v).cause = s.cause := rfl
@[simp] theorem State.einfo_setX (s : State) (d : XReg) (v : Word) :
    (s.setX d v).einfo = s.einfo := rfl
@[simp] theorem State.fvalid_setX (s : State) (d : XReg) (v : Word) :
    (s.setX d v).fvalid = s.fvalid := rfl
@[simp] theorem State.prim_setX (s : State) (d : XReg) (v : Word) :
    (s.setX d v).prim = s.prim := rfl
@[simp] theorem State.tab_setX (s : State) (d : XReg) (v : Word) :
    (s.setX d v).tab = s.tab := rfl
@[simp] theorem State.vstate_setX (s : State) (d : XReg) (v : Word) :
    (s.setX d v).vstate = s.vstate := rfl
@[simp] theorem State.rate_setX (s : State) (d : XReg) (v : Word) :
    (s.setX d v).rate = s.rate := rfl
@[simp] theorem State.order_setX (s : State) (d : XReg) (v : Word) :
    (s.setX d v).order = s.order := rfl
@[simp] theorem State.poly_setX (s : State) (d : XReg) (v : Word) :
    (s.setX d v).poly = s.poly := rfl
@[simp] theorem State.softmode_setX (s : State) (d : XReg) (v : Word) :
    (s.setX d v).softmode = s.softmode := rfl
@[simp] theorem State.sym_setX (s : State) (d : XReg) (v : Word) :
    (s.setX d v).sym = s.sym := rfl
@[simp] theorem State.outtab_setX (s : State) (d : XReg) (v : Word) :
    (s.setX d v).outtab = s.outtab := rfl
@[simp] theorem State.tbmin_setX (s : State) (d : XReg) (v : Word) :
    (s.setX d v).tbmin = s.tbmin := rfl
@[simp] theorem State.tbburst_setX (s : State) (d : XReg) (v : Word) :
    (s.setX d v).tbburst = s.tbburst := rfl
@[simp] theorem State.cap_setX (s : State) (d : XReg) (v : Word) :
    (s.setX d v).cap = s.cap := rfl
@[simp] theorem State.rint_setX (s : State) (d : XReg) (v : Word) :
    (s.setX d v).rint = s.rint := rfl
@[simp] theorem State.pm0_setX (s : State) (d : XReg) (v : Word) :
    (s.setX d v).pm0 = s.pm0 := rfl
@[simp] theorem State.pm1_setX (s : State) (d : XReg) (v : Word) :
    (s.setX d v).pm1 = s.pm1 := rfl
@[simp] theorem State.pmsel_setX (s : State) (d : XReg) (v : Word) :
    (s.setX d v).pmsel = s.pmsel := rfl
@[simp] theorem State.dist_setX (s : State) (d : XReg) (v : Word) :
    (s.setX d v).dist = s.dist := rfl
@[simp] theorem State.hist_setX (s : State) (d : XReg) (v : Word) :
    (s.setX d v).hist = s.hist := rfl
@[simp] theorem State.hidx_setX (s : State) (d : XReg) (v : Word) :
    (s.setX d v).hidx = s.hidx := rfl
@[simp] theorem State.hlen_setX (s : State) (d : XReg) (v : Word) :
    (s.setX d v).hlen = s.hlen := rfl
@[simp] theorem State.rcnt_setX (s : State) (d : XReg) (v : Word) :
    (s.setX d v).rcnt = s.rcnt := rfl
@[simp] theorem State.slice_setX (s : State) (d : XReg) (v : Word) :
    (s.setX d v).slice = s.slice := rfl
@[simp] theorem State.sets_setX (s : State) (d : XReg) (v : Word) :
    (s.setX d v).sets = s.sets := rfl
@[simp] theorem State.outq_setX (s : State) (d : XReg) (v : Word) :
    (s.setX d v).outq = s.outq := rfl
@[simp] theorem State.esr_setX (s : State) (d : XReg) (v : Word) :
    (s.setX d v).esr = s.esr := rfl
@[simp] theorem State.scr0_setX (s : State) (d : XReg) (v : Word) :
    (s.setX d v).scr0 = s.scr0 := rfl
@[simp] theorem State.scr1_setX (s : State) (d : XReg) (v : Word) :
    (s.setX d v).scr1 = s.scr1 := rfl
@[simp] theorem State.rsel_setX (s : State) (d : XReg) (v : Word) :
    (s.setX d v).rsel = s.rsel := rfl
@[simp] theorem State.host_setX (s : State) (d : XReg) (v : Word) :
    (s.setX d v).host = s.host := rfl
@[simp] theorem State.draws_setX (s : State) (d : XReg) (v : Word) :
    (s.setX d v).draws = s.draws := rfl

/-! ## `State.setXByte` -/

@[simp] theorem State.x_setXByte (s : State) (d : XReg) (v : Byte) :
    (s.setXByte d v).x = s.x.write d (v.setWidth 32) := rfl
@[simp] theorem State.p_setXByte (s : State) (d : XReg) (v : Byte) :
    (s.setXByte d v).p = s.p := rfl
@[simp] theorem State.fault_setXByte (s : State) (d : XReg) (v : Byte) :
    (s.setXByte d v).fault = s.fault := rfl
@[simp] theorem State.ovf_setXByte (s : State) (d : XReg) (v : Byte) :
    (s.setXByte d v).ovf = s.ovf := rfl
@[simp] theorem State.cause_setXByte (s : State) (d : XReg) (v : Byte) :
    (s.setXByte d v).cause = s.cause := rfl
@[simp] theorem State.einfo_setXByte (s : State) (d : XReg) (v : Byte) :
    (s.setXByte d v).einfo = s.einfo := rfl
@[simp] theorem State.fvalid_setXByte (s : State) (d : XReg) (v : Byte) :
    (s.setXByte d v).fvalid = s.fvalid := rfl
@[simp] theorem State.prim_setXByte (s : State) (d : XReg) (v : Byte) :
    (s.setXByte d v).prim = s.prim := rfl
@[simp] theorem State.tab_setXByte (s : State) (d : XReg) (v : Byte) :
    (s.setXByte d v).tab = s.tab := rfl
@[simp] theorem State.vstate_setXByte (s : State) (d : XReg) (v : Byte) :
    (s.setXByte d v).vstate = s.vstate := rfl
@[simp] theorem State.rate_setXByte (s : State) (d : XReg) (v : Byte) :
    (s.setXByte d v).rate = s.rate := rfl
@[simp] theorem State.order_setXByte (s : State) (d : XReg) (v : Byte) :
    (s.setXByte d v).order = s.order := rfl
@[simp] theorem State.poly_setXByte (s : State) (d : XReg) (v : Byte) :
    (s.setXByte d v).poly = s.poly := rfl
@[simp] theorem State.softmode_setXByte (s : State) (d : XReg) (v : Byte) :
    (s.setXByte d v).softmode = s.softmode := rfl
@[simp] theorem State.sym_setXByte (s : State) (d : XReg) (v : Byte) :
    (s.setXByte d v).sym = s.sym := rfl
@[simp] theorem State.outtab_setXByte (s : State) (d : XReg) (v : Byte) :
    (s.setXByte d v).outtab = s.outtab := rfl
@[simp] theorem State.tbmin_setXByte (s : State) (d : XReg) (v : Byte) :
    (s.setXByte d v).tbmin = s.tbmin := rfl
@[simp] theorem State.tbburst_setXByte (s : State) (d : XReg) (v : Byte) :
    (s.setXByte d v).tbburst = s.tbburst := rfl
@[simp] theorem State.cap_setXByte (s : State) (d : XReg) (v : Byte) :
    (s.setXByte d v).cap = s.cap := rfl
@[simp] theorem State.rint_setXByte (s : State) (d : XReg) (v : Byte) :
    (s.setXByte d v).rint = s.rint := rfl
@[simp] theorem State.pm0_setXByte (s : State) (d : XReg) (v : Byte) :
    (s.setXByte d v).pm0 = s.pm0 := rfl
@[simp] theorem State.pm1_setXByte (s : State) (d : XReg) (v : Byte) :
    (s.setXByte d v).pm1 = s.pm1 := rfl
@[simp] theorem State.pmsel_setXByte (s : State) (d : XReg) (v : Byte) :
    (s.setXByte d v).pmsel = s.pmsel := rfl
@[simp] theorem State.dist_setXByte (s : State) (d : XReg) (v : Byte) :
    (s.setXByte d v).dist = s.dist := rfl
@[simp] theorem State.hist_setXByte (s : State) (d : XReg) (v : Byte) :
    (s.setXByte d v).hist = s.hist := rfl
@[simp] theorem State.hidx_setXByte (s : State) (d : XReg) (v : Byte) :
    (s.setXByte d v).hidx = s.hidx := rfl
@[simp] theorem State.hlen_setXByte (s : State) (d : XReg) (v : Byte) :
    (s.setXByte d v).hlen = s.hlen := rfl
@[simp] theorem State.rcnt_setXByte (s : State) (d : XReg) (v : Byte) :
    (s.setXByte d v).rcnt = s.rcnt := rfl
@[simp] theorem State.slice_setXByte (s : State) (d : XReg) (v : Byte) :
    (s.setXByte d v).slice = s.slice := rfl
@[simp] theorem State.sets_setXByte (s : State) (d : XReg) (v : Byte) :
    (s.setXByte d v).sets = s.sets := rfl
@[simp] theorem State.outq_setXByte (s : State) (d : XReg) (v : Byte) :
    (s.setXByte d v).outq = s.outq := rfl
@[simp] theorem State.esr_setXByte (s : State) (d : XReg) (v : Byte) :
    (s.setXByte d v).esr = s.esr := rfl
@[simp] theorem State.scr0_setXByte (s : State) (d : XReg) (v : Byte) :
    (s.setXByte d v).scr0 = s.scr0 := rfl
@[simp] theorem State.scr1_setXByte (s : State) (d : XReg) (v : Byte) :
    (s.setXByte d v).scr1 = s.scr1 := rfl
@[simp] theorem State.rsel_setXByte (s : State) (d : XReg) (v : Byte) :
    (s.setXByte d v).rsel = s.rsel := rfl
@[simp] theorem State.host_setXByte (s : State) (d : XReg) (v : Byte) :
    (s.setXByte d v).host = s.host := rfl
@[simp] theorem State.draws_setXByte (s : State) (d : XReg) (v : Byte) :
    (s.setXByte d v).draws = s.draws := rfl

/-! ## `State.setP` -/

@[simp] theorem State.x_setP (s : State) (d : PReg) (q : PolyReg) :
    (s.setP d q).x = s.x := rfl
@[simp] theorem State.p_setP (s : State) (d : PReg) (q : PolyReg) :
    (s.setP d q).p = s.p.write d q := rfl
@[simp] theorem State.fault_setP (s : State) (d : PReg) (q : PolyReg) :
    (s.setP d q).fault = s.fault := rfl
@[simp] theorem State.ovf_setP (s : State) (d : PReg) (q : PolyReg) :
    (s.setP d q).ovf = s.ovf := rfl
@[simp] theorem State.cause_setP (s : State) (d : PReg) (q : PolyReg) :
    (s.setP d q).cause = s.cause := rfl
@[simp] theorem State.einfo_setP (s : State) (d : PReg) (q : PolyReg) :
    (s.setP d q).einfo = s.einfo := rfl
@[simp] theorem State.fvalid_setP (s : State) (d : PReg) (q : PolyReg) :
    (s.setP d q).fvalid = s.fvalid := rfl
@[simp] theorem State.prim_setP (s : State) (d : PReg) (q : PolyReg) :
    (s.setP d q).prim = s.prim := rfl
@[simp] theorem State.tab_setP (s : State) (d : PReg) (q : PolyReg) :
    (s.setP d q).tab = s.tab := rfl
@[simp] theorem State.vstate_setP (s : State) (d : PReg) (q : PolyReg) :
    (s.setP d q).vstate = s.vstate := rfl
@[simp] theorem State.rate_setP (s : State) (d : PReg) (q : PolyReg) :
    (s.setP d q).rate = s.rate := rfl
@[simp] theorem State.order_setP (s : State) (d : PReg) (q : PolyReg) :
    (s.setP d q).order = s.order := rfl
@[simp] theorem State.poly_setP (s : State) (d : PReg) (q : PolyReg) :
    (s.setP d q).poly = s.poly := rfl
@[simp] theorem State.softmode_setP (s : State) (d : PReg) (q : PolyReg) :
    (s.setP d q).softmode = s.softmode := rfl
@[simp] theorem State.sym_setP (s : State) (d : PReg) (q : PolyReg) :
    (s.setP d q).sym = s.sym := rfl
@[simp] theorem State.outtab_setP (s : State) (d : PReg) (q : PolyReg) :
    (s.setP d q).outtab = s.outtab := rfl
@[simp] theorem State.tbmin_setP (s : State) (d : PReg) (q : PolyReg) :
    (s.setP d q).tbmin = s.tbmin := rfl
@[simp] theorem State.tbburst_setP (s : State) (d : PReg) (q : PolyReg) :
    (s.setP d q).tbburst = s.tbburst := rfl
@[simp] theorem State.cap_setP (s : State) (d : PReg) (q : PolyReg) :
    (s.setP d q).cap = s.cap := rfl
@[simp] theorem State.rint_setP (s : State) (d : PReg) (q : PolyReg) :
    (s.setP d q).rint = s.rint := rfl
@[simp] theorem State.pm0_setP (s : State) (d : PReg) (q : PolyReg) :
    (s.setP d q).pm0 = s.pm0 := rfl
@[simp] theorem State.pm1_setP (s : State) (d : PReg) (q : PolyReg) :
    (s.setP d q).pm1 = s.pm1 := rfl
@[simp] theorem State.pmsel_setP (s : State) (d : PReg) (q : PolyReg) :
    (s.setP d q).pmsel = s.pmsel := rfl
@[simp] theorem State.dist_setP (s : State) (d : PReg) (q : PolyReg) :
    (s.setP d q).dist = s.dist := rfl
@[simp] theorem State.hist_setP (s : State) (d : PReg) (q : PolyReg) :
    (s.setP d q).hist = s.hist := rfl
@[simp] theorem State.hidx_setP (s : State) (d : PReg) (q : PolyReg) :
    (s.setP d q).hidx = s.hidx := rfl
@[simp] theorem State.hlen_setP (s : State) (d : PReg) (q : PolyReg) :
    (s.setP d q).hlen = s.hlen := rfl
@[simp] theorem State.rcnt_setP (s : State) (d : PReg) (q : PolyReg) :
    (s.setP d q).rcnt = s.rcnt := rfl
@[simp] theorem State.slice_setP (s : State) (d : PReg) (q : PolyReg) :
    (s.setP d q).slice = s.slice := rfl
@[simp] theorem State.sets_setP (s : State) (d : PReg) (q : PolyReg) :
    (s.setP d q).sets = s.sets := rfl
@[simp] theorem State.outq_setP (s : State) (d : PReg) (q : PolyReg) :
    (s.setP d q).outq = s.outq := rfl
@[simp] theorem State.esr_setP (s : State) (d : PReg) (q : PolyReg) :
    (s.setP d q).esr = s.esr := rfl
@[simp] theorem State.scr0_setP (s : State) (d : PReg) (q : PolyReg) :
    (s.setP d q).scr0 = s.scr0 := rfl
@[simp] theorem State.scr1_setP (s : State) (d : PReg) (q : PolyReg) :
    (s.setP d q).scr1 = s.scr1 := rfl
@[simp] theorem State.rsel_setP (s : State) (d : PReg) (q : PolyReg) :
    (s.setP d q).rsel = s.rsel := rfl
@[simp] theorem State.host_setP (s : State) (d : PReg) (q : PolyReg) :
    (s.setP d q).host = s.host := rfl
@[simp] theorem State.draws_setP (s : State) (d : PReg) (q : PolyReg) :
    (s.setP d q).draws = s.draws := rfl

/-! ## `State.latch` -/

@[simp] theorem State.x_latch (s : State) (c : Cause) (w : Word) :
    (s.latch c w).x = s.x := rfl
@[simp] theorem State.p_latch (s : State) (c : Cause) (w : Word) :
    (s.latch c w).p = s.p := rfl
@[simp] theorem State.fault_latch (s : State) (c : Cause) (w : Word) :
    (s.latch c w).fault = true := rfl
@[simp] theorem State.ovf_latch (s : State) (c : Cause) (w : Word) :
    (s.latch c w).ovf = s.ovf := rfl
@[simp] theorem State.cause_latch (s : State) (c : Cause) (w : Word) :
    (s.latch c w).cause = c.code := rfl
@[simp] theorem State.einfo_latch (s : State) (c : Cause) (w : Word) :
    (s.latch c w).einfo = w := rfl
@[simp] theorem State.fvalid_latch (s : State) (c : Cause) (w : Word) :
    (s.latch c w).fvalid = s.fvalid := rfl
@[simp] theorem State.prim_latch (s : State) (c : Cause) (w : Word) :
    (s.latch c w).prim = s.prim := rfl
@[simp] theorem State.tab_latch (s : State) (c : Cause) (w : Word) :
    (s.latch c w).tab = s.tab := rfl
@[simp] theorem State.vstate_latch (s : State) (c : Cause) (w : Word) :
    (s.latch c w).vstate = s.vstate := rfl
@[simp] theorem State.rate_latch (s : State) (c : Cause) (w : Word) :
    (s.latch c w).rate = s.rate := rfl
@[simp] theorem State.order_latch (s : State) (c : Cause) (w : Word) :
    (s.latch c w).order = s.order := rfl
@[simp] theorem State.poly_latch (s : State) (c : Cause) (w : Word) :
    (s.latch c w).poly = s.poly := rfl
@[simp] theorem State.softmode_latch (s : State) (c : Cause) (w : Word) :
    (s.latch c w).softmode = s.softmode := rfl
@[simp] theorem State.sym_latch (s : State) (c : Cause) (w : Word) :
    (s.latch c w).sym = s.sym := rfl
@[simp] theorem State.outtab_latch (s : State) (c : Cause) (w : Word) :
    (s.latch c w).outtab = s.outtab := rfl
@[simp] theorem State.tbmin_latch (s : State) (c : Cause) (w : Word) :
    (s.latch c w).tbmin = s.tbmin := rfl
@[simp] theorem State.tbburst_latch (s : State) (c : Cause) (w : Word) :
    (s.latch c w).tbburst = s.tbburst := rfl
@[simp] theorem State.cap_latch (s : State) (c : Cause) (w : Word) :
    (s.latch c w).cap = s.cap := rfl
@[simp] theorem State.rint_latch (s : State) (c : Cause) (w : Word) :
    (s.latch c w).rint = s.rint := rfl
@[simp] theorem State.pm0_latch (s : State) (c : Cause) (w : Word) :
    (s.latch c w).pm0 = s.pm0 := rfl
@[simp] theorem State.pm1_latch (s : State) (c : Cause) (w : Word) :
    (s.latch c w).pm1 = s.pm1 := rfl
@[simp] theorem State.pmsel_latch (s : State) (c : Cause) (w : Word) :
    (s.latch c w).pmsel = s.pmsel := rfl
@[simp] theorem State.dist_latch (s : State) (c : Cause) (w : Word) :
    (s.latch c w).dist = s.dist := rfl
@[simp] theorem State.hist_latch (s : State) (c : Cause) (w : Word) :
    (s.latch c w).hist = s.hist := rfl
@[simp] theorem State.hidx_latch (s : State) (c : Cause) (w : Word) :
    (s.latch c w).hidx = s.hidx := rfl
@[simp] theorem State.hlen_latch (s : State) (c : Cause) (w : Word) :
    (s.latch c w).hlen = s.hlen := rfl
@[simp] theorem State.rcnt_latch (s : State) (c : Cause) (w : Word) :
    (s.latch c w).rcnt = s.rcnt := rfl
@[simp] theorem State.slice_latch (s : State) (c : Cause) (w : Word) :
    (s.latch c w).slice = s.slice := rfl
@[simp] theorem State.sets_latch (s : State) (c : Cause) (w : Word) :
    (s.latch c w).sets = s.sets := rfl
@[simp] theorem State.outq_latch (s : State) (c : Cause) (w : Word) :
    (s.latch c w).outq = s.outq := rfl
@[simp] theorem State.esr_latch (s : State) (c : Cause) (w : Word) :
    (s.latch c w).esr = s.esr := rfl
@[simp] theorem State.scr0_latch (s : State) (c : Cause) (w : Word) :
    (s.latch c w).scr0 = s.scr0 := rfl
@[simp] theorem State.scr1_latch (s : State) (c : Cause) (w : Word) :
    (s.latch c w).scr1 = s.scr1 := rfl
@[simp] theorem State.rsel_latch (s : State) (c : Cause) (w : Word) :
    (s.latch c w).rsel = s.rsel := rfl
@[simp] theorem State.host_latch (s : State) (c : Cause) (w : Word) :
    (s.latch c w).host = s.host := rfl
@[simp] theorem State.draws_latch (s : State) (c : Cause) (w : Word) :
    (s.latch c w).draws = s.draws := rfl

/-! ## `State.countSlice` -/

@[simp] theorem State.x_countSlice (s : State) :
    s.countSlice.x = s.x := rfl
@[simp] theorem State.p_countSlice (s : State) :
    s.countSlice.p = s.p := rfl
@[simp] theorem State.fault_countSlice (s : State) :
    s.countSlice.fault = s.fault := rfl
@[simp] theorem State.ovf_countSlice (s : State) :
    s.countSlice.ovf = s.ovf := rfl
@[simp] theorem State.cause_countSlice (s : State) :
    s.countSlice.cause = s.cause := rfl
@[simp] theorem State.einfo_countSlice (s : State) :
    s.countSlice.einfo = s.einfo := rfl
@[simp] theorem State.fvalid_countSlice (s : State) :
    s.countSlice.fvalid = s.fvalid := rfl
@[simp] theorem State.prim_countSlice (s : State) :
    s.countSlice.prim = s.prim := rfl
@[simp] theorem State.tab_countSlice (s : State) :
    s.countSlice.tab = s.tab := rfl
@[simp] theorem State.vstate_countSlice (s : State) :
    s.countSlice.vstate = s.vstate := rfl
@[simp] theorem State.rate_countSlice (s : State) :
    s.countSlice.rate = s.rate := rfl
@[simp] theorem State.order_countSlice (s : State) :
    s.countSlice.order = s.order := rfl
@[simp] theorem State.poly_countSlice (s : State) :
    s.countSlice.poly = s.poly := rfl
@[simp] theorem State.softmode_countSlice (s : State) :
    s.countSlice.softmode = s.softmode := rfl
@[simp] theorem State.sym_countSlice (s : State) :
    s.countSlice.sym = s.sym := rfl
@[simp] theorem State.outtab_countSlice (s : State) :
    s.countSlice.outtab = s.outtab := rfl
@[simp] theorem State.tbmin_countSlice (s : State) :
    s.countSlice.tbmin = s.tbmin := rfl
@[simp] theorem State.tbburst_countSlice (s : State) :
    s.countSlice.tbburst = s.tbburst := rfl
@[simp] theorem State.cap_countSlice (s : State) :
    s.countSlice.cap = s.cap := rfl
@[simp] theorem State.rint_countSlice (s : State) :
    s.countSlice.rint = s.rint := rfl
@[simp] theorem State.pm0_countSlice (s : State) :
    s.countSlice.pm0 = s.pm0 := rfl
@[simp] theorem State.pm1_countSlice (s : State) :
    s.countSlice.pm1 = s.pm1 := rfl
@[simp] theorem State.pmsel_countSlice (s : State) :
    s.countSlice.pmsel = s.pmsel := rfl
@[simp] theorem State.dist_countSlice (s : State) :
    s.countSlice.dist = s.dist := rfl
@[simp] theorem State.hist_countSlice (s : State) :
    s.countSlice.hist = s.hist := rfl
@[simp] theorem State.hidx_countSlice (s : State) :
    s.countSlice.hidx = BitVec.ofNat 16 ((s.hidx.toNat + 1) % s.cap.toNat) := rfl
@[simp] theorem State.hlen_countSlice (s : State) :
    s.countSlice.hlen = s.hlen + 1 := rfl
@[simp] theorem State.rcnt_countSlice (s : State) :
    s.countSlice.rcnt = s.rcnt + 1 := rfl
@[simp] theorem State.slice_countSlice (s : State) :
    s.countSlice.slice = s.slice := rfl
@[simp] theorem State.sets_countSlice (s : State) :
    s.countSlice.sets = s.sets := rfl
@[simp] theorem State.outq_countSlice (s : State) :
    s.countSlice.outq = s.outq := rfl
@[simp] theorem State.esr_countSlice (s : State) :
    s.countSlice.esr = s.esr := rfl
@[simp] theorem State.scr0_countSlice (s : State) :
    s.countSlice.scr0 = s.scr0 := rfl
@[simp] theorem State.scr1_countSlice (s : State) :
    s.countSlice.scr1 = s.scr1 := rfl
@[simp] theorem State.rsel_countSlice (s : State) :
    s.countSlice.rsel = s.rsel := rfl
@[simp] theorem State.host_countSlice (s : State) :
    s.countSlice.host = s.host := rfl
@[simp] theorem State.draws_countSlice (s : State) :
    s.countSlice.draws = s.draws := rfl

/-! ## `State.endSlice` -/

@[simp] theorem State.x_endSlice (s : State) :
    s.endSlice.x = s.x := rfl
@[simp] theorem State.p_endSlice (s : State) :
    s.endSlice.p = s.p := rfl
@[simp] theorem State.fault_endSlice (s : State) :
    s.endSlice.fault = s.fault := rfl
@[simp] theorem State.ovf_endSlice (s : State) :
    s.endSlice.ovf = s.ovf := rfl
@[simp] theorem State.cause_endSlice (s : State) :
    s.endSlice.cause = s.cause := rfl
@[simp] theorem State.einfo_endSlice (s : State) :
    s.endSlice.einfo = s.einfo := rfl
@[simp] theorem State.fvalid_endSlice (s : State) :
    s.endSlice.fvalid = s.fvalid := rfl
@[simp] theorem State.prim_endSlice (s : State) :
    s.endSlice.prim = s.prim := rfl
@[simp] theorem State.tab_endSlice (s : State) :
    s.endSlice.tab = s.tab := rfl
@[simp] theorem State.vstate_endSlice (s : State) :
    s.endSlice.vstate = s.vstate := rfl
@[simp] theorem State.rate_endSlice (s : State) :
    s.endSlice.rate = s.rate := rfl
@[simp] theorem State.order_endSlice (s : State) :
    s.endSlice.order = s.order := rfl
@[simp] theorem State.poly_endSlice (s : State) :
    s.endSlice.poly = s.poly := rfl
@[simp] theorem State.softmode_endSlice (s : State) :
    s.endSlice.softmode = s.softmode := rfl
@[simp] theorem State.sym_endSlice (s : State) :
    s.endSlice.sym = s.sym := rfl
@[simp] theorem State.outtab_endSlice (s : State) :
    s.endSlice.outtab = s.outtab := rfl
@[simp] theorem State.tbmin_endSlice (s : State) :
    s.endSlice.tbmin = s.tbmin := rfl
@[simp] theorem State.tbburst_endSlice (s : State) :
    s.endSlice.tbburst = s.tbburst := rfl
@[simp] theorem State.cap_endSlice (s : State) :
    s.endSlice.cap = s.cap := rfl
@[simp] theorem State.rint_endSlice (s : State) :
    s.endSlice.rint = s.rint := rfl
@[simp] theorem State.pm0_endSlice (s : State) :
    s.endSlice.pm0 = s.pm0 := rfl
@[simp] theorem State.pm1_endSlice (s : State) :
    s.endSlice.pm1 = s.pm1 := rfl
@[simp] theorem State.pmsel_endSlice (s : State) :
    s.endSlice.pmsel = (!s.pmsel) := rfl
@[simp] theorem State.dist_endSlice (s : State) :
    s.endSlice.dist = s.dist := rfl
@[simp] theorem State.hist_endSlice (s : State) :
    s.endSlice.hist = s.hist := rfl
@[simp] theorem State.hidx_endSlice (s : State) :
    s.endSlice.hidx = s.hidx := rfl
@[simp] theorem State.hlen_endSlice (s : State) :
    s.endSlice.hlen = s.hlen := rfl
@[simp] theorem State.rcnt_endSlice (s : State) :
    s.endSlice.rcnt = s.rcnt := rfl
@[simp] theorem State.slice_endSlice (s : State) :
    s.endSlice.slice = s.slice + 1 := rfl
@[simp] theorem State.sets_endSlice (s : State) :
    s.endSlice.sets = s.sets := rfl
@[simp] theorem State.outq_endSlice (s : State) :
    s.endSlice.outq = s.outq := rfl
@[simp] theorem State.esr_endSlice (s : State) :
    s.endSlice.esr = s.esr := rfl
@[simp] theorem State.scr0_endSlice (s : State) :
    s.endSlice.scr0 = s.scr0 := rfl
@[simp] theorem State.scr1_endSlice (s : State) :
    s.endSlice.scr1 = s.scr1 := rfl
@[simp] theorem State.rsel_endSlice (s : State) :
    s.endSlice.rsel = s.rsel := rfl
@[simp] theorem State.host_endSlice (s : State) :
    s.endSlice.host = s.host := rfl
@[simp] theorem State.draws_endSlice (s : State) :
    s.endSlice.draws = s.draws := rfl

/-! ## `State.traceback` -/

@[simp] theorem State.x_traceback (s : State) (b mind : Nat) :
    (s.traceback b mind).x = s.x := rfl
@[simp] theorem State.p_traceback (s : State) (b mind : Nat) :
    (s.traceback b mind).p = s.p := rfl
@[simp] theorem State.fault_traceback (s : State) (b mind : Nat) :
    (s.traceback b mind).fault = s.fault := rfl
@[simp] theorem State.ovf_traceback (s : State) (b mind : Nat) :
    (s.traceback b mind).ovf = s.ovf := rfl
@[simp] theorem State.cause_traceback (s : State) (b mind : Nat) :
    (s.traceback b mind).cause = s.cause := rfl
@[simp] theorem State.einfo_traceback (s : State) (b mind : Nat) :
    (s.traceback b mind).einfo = s.einfo := rfl
@[simp] theorem State.fvalid_traceback (s : State) (b mind : Nat) :
    (s.traceback b mind).fvalid = s.fvalid := rfl
@[simp] theorem State.prim_traceback (s : State) (b mind : Nat) :
    (s.traceback b mind).prim = s.prim := rfl
@[simp] theorem State.tab_traceback (s : State) (b mind : Nat) :
    (s.traceback b mind).tab = s.tab := rfl
@[simp] theorem State.vstate_traceback (s : State) (b mind : Nat) :
    (s.traceback b mind).vstate = s.vstate := rfl
@[simp] theorem State.rate_traceback (s : State) (b mind : Nat) :
    (s.traceback b mind).rate = s.rate := rfl
@[simp] theorem State.order_traceback (s : State) (b mind : Nat) :
    (s.traceback b mind).order = s.order := rfl
@[simp] theorem State.poly_traceback (s : State) (b mind : Nat) :
    (s.traceback b mind).poly = s.poly := rfl
@[simp] theorem State.softmode_traceback (s : State) (b mind : Nat) :
    (s.traceback b mind).softmode = s.softmode := rfl
@[simp] theorem State.sym_traceback (s : State) (b mind : Nat) :
    (s.traceback b mind).sym = s.sym := rfl
@[simp] theorem State.outtab_traceback (s : State) (b mind : Nat) :
    (s.traceback b mind).outtab = s.outtab := rfl
@[simp] theorem State.tbmin_traceback (s : State) (b mind : Nat) :
    (s.traceback b mind).tbmin = s.tbmin := rfl
@[simp] theorem State.tbburst_traceback (s : State) (b mind : Nat) :
    (s.traceback b mind).tbburst = s.tbburst := rfl
@[simp] theorem State.cap_traceback (s : State) (b mind : Nat) :
    (s.traceback b mind).cap = s.cap := rfl
@[simp] theorem State.rint_traceback (s : State) (b mind : Nat) :
    (s.traceback b mind).rint = s.rint := rfl
@[simp] theorem State.pm0_traceback (s : State) (b mind : Nat) :
    (s.traceback b mind).pm0 = s.pm0 := rfl
@[simp] theorem State.pm1_traceback (s : State) (b mind : Nat) :
    (s.traceback b mind).pm1 = s.pm1 := rfl
@[simp] theorem State.pmsel_traceback (s : State) (b mind : Nat) :
    (s.traceback b mind).pmsel = s.pmsel := rfl
@[simp] theorem State.dist_traceback (s : State) (b mind : Nat) :
    (s.traceback b mind).dist = s.dist := rfl
@[simp] theorem State.hist_traceback (s : State) (b mind : Nat) :
    (s.traceback b mind).hist = s.hist := rfl
@[simp] theorem State.hidx_traceback (s : State) (b mind : Nat) :
    (s.traceback b mind).hidx = s.hidx := rfl
@[simp] theorem State.rcnt_traceback (s : State) (b mind : Nat) :
    (s.traceback b mind).rcnt = s.rcnt := rfl
@[simp] theorem State.slice_traceback (s : State) (b mind : Nat) :
    (s.traceback b mind).slice = s.slice := rfl
@[simp] theorem State.sets_traceback (s : State) (b mind : Nat) :
    (s.traceback b mind).sets = s.sets := rfl
@[simp] theorem State.esr_traceback (s : State) (b mind : Nat) :
    (s.traceback b mind).esr = s.esr := rfl
@[simp] theorem State.scr0_traceback (s : State) (b mind : Nat) :
    (s.traceback b mind).scr0 = s.scr0 := rfl
@[simp] theorem State.scr1_traceback (s : State) (b mind : Nat) :
    (s.traceback b mind).scr1 = s.scr1 := rfl
@[simp] theorem State.rsel_traceback (s : State) (b mind : Nat) :
    (s.traceback b mind).rsel = s.rsel := rfl
@[simp] theorem State.host_traceback (s : State) (b mind : Nat) :
    (s.traceback b mind).host = s.host := rfl
@[simp] theorem State.draws_traceback (s : State) (b mind : Nat) :
    (s.traceback b mind).draws = s.draws := rfl

/-! ## `State.clearLatch` -/

@[simp] theorem State.x_clearLatch (s : State) :
    s.clearLatch.x = s.x := by unfold State.clearLatch; split <;> rfl
@[simp] theorem State.p_clearLatch (s : State) :
    s.clearLatch.p = s.p := by unfold State.clearLatch; split <;> rfl
@[simp] theorem State.ovf_clearLatch (s : State) :
    s.clearLatch.ovf = s.ovf := by unfold State.clearLatch; split <;> rfl
@[simp] theorem State.fvalid_clearLatch (s : State) :
    s.clearLatch.fvalid = s.fvalid := by unfold State.clearLatch; split <;> rfl
@[simp] theorem State.prim_clearLatch (s : State) :
    s.clearLatch.prim = s.prim := by unfold State.clearLatch; split <;> rfl
@[simp] theorem State.tab_clearLatch (s : State) :
    s.clearLatch.tab = s.tab := by unfold State.clearLatch; split <;> rfl
@[simp] theorem State.vstate_clearLatch (s : State) :
    s.clearLatch.vstate = s.vstate := by unfold State.clearLatch; split <;> rfl
@[simp] theorem State.rate_clearLatch (s : State) :
    s.clearLatch.rate = s.rate := by unfold State.clearLatch; split <;> rfl
@[simp] theorem State.order_clearLatch (s : State) :
    s.clearLatch.order = s.order := by unfold State.clearLatch; split <;> rfl
@[simp] theorem State.poly_clearLatch (s : State) :
    s.clearLatch.poly = s.poly := by unfold State.clearLatch; split <;> rfl
@[simp] theorem State.softmode_clearLatch (s : State) :
    s.clearLatch.softmode = s.softmode := by unfold State.clearLatch; split <;> rfl
@[simp] theorem State.sym_clearLatch (s : State) :
    s.clearLatch.sym = s.sym := by unfold State.clearLatch; split <;> rfl
@[simp] theorem State.outtab_clearLatch (s : State) :
    s.clearLatch.outtab = s.outtab := by unfold State.clearLatch; split <;> rfl
@[simp] theorem State.tbmin_clearLatch (s : State) :
    s.clearLatch.tbmin = s.tbmin := by unfold State.clearLatch; split <;> rfl
@[simp] theorem State.tbburst_clearLatch (s : State) :
    s.clearLatch.tbburst = s.tbburst := by unfold State.clearLatch; split <;> rfl
@[simp] theorem State.cap_clearLatch (s : State) :
    s.clearLatch.cap = s.cap := by unfold State.clearLatch; split <;> rfl
@[simp] theorem State.rint_clearLatch (s : State) :
    s.clearLatch.rint = s.rint := by unfold State.clearLatch; split <;> rfl
@[simp] theorem State.pm0_clearLatch (s : State) :
    s.clearLatch.pm0 = s.pm0 := by unfold State.clearLatch; split <;> rfl
@[simp] theorem State.pm1_clearLatch (s : State) :
    s.clearLatch.pm1 = s.pm1 := by unfold State.clearLatch; split <;> rfl
@[simp] theorem State.pmsel_clearLatch (s : State) :
    s.clearLatch.pmsel = s.pmsel := by unfold State.clearLatch; split <;> rfl
@[simp] theorem State.dist_clearLatch (s : State) :
    s.clearLatch.dist = s.dist := by unfold State.clearLatch; split <;> rfl
@[simp] theorem State.hist_clearLatch (s : State) :
    s.clearLatch.hist = s.hist := by unfold State.clearLatch; split <;> rfl
@[simp] theorem State.hidx_clearLatch (s : State) :
    s.clearLatch.hidx = s.hidx := by unfold State.clearLatch; split <;> rfl
@[simp] theorem State.hlen_clearLatch (s : State) :
    s.clearLatch.hlen = s.hlen := by unfold State.clearLatch; split <;> rfl
@[simp] theorem State.rcnt_clearLatch (s : State) :
    s.clearLatch.rcnt = s.rcnt := by unfold State.clearLatch; split <;> rfl
@[simp] theorem State.slice_clearLatch (s : State) :
    s.clearLatch.slice = s.slice := by unfold State.clearLatch; split <;> rfl
@[simp] theorem State.sets_clearLatch (s : State) :
    s.clearLatch.sets = s.sets := by unfold State.clearLatch; split <;> rfl
@[simp] theorem State.outq_clearLatch (s : State) :
    s.clearLatch.outq = s.outq := by unfold State.clearLatch; split <;> rfl
@[simp] theorem State.esr_clearLatch (s : State) :
    s.clearLatch.esr = s.esr := by unfold State.clearLatch; split <;> rfl
@[simp] theorem State.scr0_clearLatch (s : State) :
    s.clearLatch.scr0 = s.scr0 := by unfold State.clearLatch; split <;> rfl
@[simp] theorem State.scr1_clearLatch (s : State) :
    s.clearLatch.scr1 = s.scr1 := by unfold State.clearLatch; split <;> rfl
@[simp] theorem State.rsel_clearLatch (s : State) :
    s.clearLatch.rsel = s.rsel := by unfold State.clearLatch; split <;> rfl
@[simp] theorem State.host_clearLatch (s : State) :
    s.clearLatch.host = s.host := by unfold State.clearLatch; split <;> rfl
@[simp] theorem State.draws_clearLatch (s : State) :
    s.clearLatch.draws = s.draws := by unfold State.clearLatch; split <;> rfl

/-! ## `State.setWriteBank` -/

@[simp] theorem State.x_setWriteBank (s : State) (w : List Metric) :
    (s.setWriteBank w).x = s.x := by unfold State.setWriteBank; split <;> rfl
@[simp] theorem State.p_setWriteBank (s : State) (w : List Metric) :
    (s.setWriteBank w).p = s.p := by unfold State.setWriteBank; split <;> rfl
@[simp] theorem State.fault_setWriteBank (s : State) (w : List Metric) :
    (s.setWriteBank w).fault = s.fault := by unfold State.setWriteBank; split <;> rfl
@[simp] theorem State.ovf_setWriteBank (s : State) (w : List Metric) :
    (s.setWriteBank w).ovf = s.ovf := by unfold State.setWriteBank; split <;> rfl
@[simp] theorem State.cause_setWriteBank (s : State) (w : List Metric) :
    (s.setWriteBank w).cause = s.cause := by unfold State.setWriteBank; split <;> rfl
@[simp] theorem State.einfo_setWriteBank (s : State) (w : List Metric) :
    (s.setWriteBank w).einfo = s.einfo := by unfold State.setWriteBank; split <;> rfl
@[simp] theorem State.fvalid_setWriteBank (s : State) (w : List Metric) :
    (s.setWriteBank w).fvalid = s.fvalid := by unfold State.setWriteBank; split <;> rfl
@[simp] theorem State.prim_setWriteBank (s : State) (w : List Metric) :
    (s.setWriteBank w).prim = s.prim := by unfold State.setWriteBank; split <;> rfl
@[simp] theorem State.tab_setWriteBank (s : State) (w : List Metric) :
    (s.setWriteBank w).tab = s.tab := by unfold State.setWriteBank; split <;> rfl
@[simp] theorem State.vstate_setWriteBank (s : State) (w : List Metric) :
    (s.setWriteBank w).vstate = s.vstate := by unfold State.setWriteBank; split <;> rfl
@[simp] theorem State.rate_setWriteBank (s : State) (w : List Metric) :
    (s.setWriteBank w).rate = s.rate := by unfold State.setWriteBank; split <;> rfl
@[simp] theorem State.order_setWriteBank (s : State) (w : List Metric) :
    (s.setWriteBank w).order = s.order := by unfold State.setWriteBank; split <;> rfl
@[simp] theorem State.poly_setWriteBank (s : State) (w : List Metric) :
    (s.setWriteBank w).poly = s.poly := by unfold State.setWriteBank; split <;> rfl
@[simp] theorem State.softmode_setWriteBank (s : State) (w : List Metric) :
    (s.setWriteBank w).softmode = s.softmode := by unfold State.setWriteBank; split <;> rfl
@[simp] theorem State.sym_setWriteBank (s : State) (w : List Metric) :
    (s.setWriteBank w).sym = s.sym := by unfold State.setWriteBank; split <;> rfl
@[simp] theorem State.outtab_setWriteBank (s : State) (w : List Metric) :
    (s.setWriteBank w).outtab = s.outtab := by unfold State.setWriteBank; split <;> rfl
@[simp] theorem State.tbmin_setWriteBank (s : State) (w : List Metric) :
    (s.setWriteBank w).tbmin = s.tbmin := by unfold State.setWriteBank; split <;> rfl
@[simp] theorem State.tbburst_setWriteBank (s : State) (w : List Metric) :
    (s.setWriteBank w).tbburst = s.tbburst := by unfold State.setWriteBank; split <;> rfl
@[simp] theorem State.cap_setWriteBank (s : State) (w : List Metric) :
    (s.setWriteBank w).cap = s.cap := by unfold State.setWriteBank; split <;> rfl
@[simp] theorem State.rint_setWriteBank (s : State) (w : List Metric) :
    (s.setWriteBank w).rint = s.rint := by unfold State.setWriteBank; split <;> rfl
@[simp] theorem State.pmsel_setWriteBank (s : State) (w : List Metric) :
    (s.setWriteBank w).pmsel = s.pmsel := by unfold State.setWriteBank; split <;> rfl
@[simp] theorem State.dist_setWriteBank (s : State) (w : List Metric) :
    (s.setWriteBank w).dist = s.dist := by unfold State.setWriteBank; split <;> rfl
@[simp] theorem State.hist_setWriteBank (s : State) (w : List Metric) :
    (s.setWriteBank w).hist = s.hist := by unfold State.setWriteBank; split <;> rfl
@[simp] theorem State.hidx_setWriteBank (s : State) (w : List Metric) :
    (s.setWriteBank w).hidx = s.hidx := by unfold State.setWriteBank; split <;> rfl
@[simp] theorem State.hlen_setWriteBank (s : State) (w : List Metric) :
    (s.setWriteBank w).hlen = s.hlen := by unfold State.setWriteBank; split <;> rfl
@[simp] theorem State.rcnt_setWriteBank (s : State) (w : List Metric) :
    (s.setWriteBank w).rcnt = s.rcnt := by unfold State.setWriteBank; split <;> rfl
@[simp] theorem State.slice_setWriteBank (s : State) (w : List Metric) :
    (s.setWriteBank w).slice = s.slice := by unfold State.setWriteBank; split <;> rfl
@[simp] theorem State.sets_setWriteBank (s : State) (w : List Metric) :
    (s.setWriteBank w).sets = s.sets := by unfold State.setWriteBank; split <;> rfl
@[simp] theorem State.outq_setWriteBank (s : State) (w : List Metric) :
    (s.setWriteBank w).outq = s.outq := by unfold State.setWriteBank; split <;> rfl
@[simp] theorem State.esr_setWriteBank (s : State) (w : List Metric) :
    (s.setWriteBank w).esr = s.esr := by unfold State.setWriteBank; split <;> rfl
@[simp] theorem State.scr0_setWriteBank (s : State) (w : List Metric) :
    (s.setWriteBank w).scr0 = s.scr0 := by unfold State.setWriteBank; split <;> rfl
@[simp] theorem State.scr1_setWriteBank (s : State) (w : List Metric) :
    (s.setWriteBank w).scr1 = s.scr1 := by unfold State.setWriteBank; split <;> rfl
@[simp] theorem State.rsel_setWriteBank (s : State) (w : List Metric) :
    (s.setWriteBank w).rsel = s.rsel := by unfold State.setWriteBank; split <;> rfl
@[simp] theorem State.host_setWriteBank (s : State) (w : List Metric) :
    (s.setWriteBank w).host = s.host := by unfold State.setWriteBank; split <;> rfl
@[simp] theorem State.draws_setWriteBank (s : State) (w : List Metric) :
    (s.setWriteBank w).draws = s.draws := by unfold State.setWriteBank; split <;> rfl

/-! ## `State.renormalise` -/

@[simp] theorem State.x_renormalise (s : State) (b : Nat) :
    (s.renormalise b).x = s.x := by simp [State.renormalise]
@[simp] theorem State.p_renormalise (s : State) (b : Nat) :
    (s.renormalise b).p = s.p := by simp [State.renormalise]
@[simp] theorem State.fault_renormalise (s : State) (b : Nat) :
    (s.renormalise b).fault = s.fault := by simp [State.renormalise]
@[simp] theorem State.ovf_renormalise (s : State) (b : Nat) :
    (s.renormalise b).ovf = s.ovf := by simp [State.renormalise]
@[simp] theorem State.cause_renormalise (s : State) (b : Nat) :
    (s.renormalise b).cause = s.cause := by simp [State.renormalise]
@[simp] theorem State.einfo_renormalise (s : State) (b : Nat) :
    (s.renormalise b).einfo = s.einfo := by simp [State.renormalise]
@[simp] theorem State.fvalid_renormalise (s : State) (b : Nat) :
    (s.renormalise b).fvalid = s.fvalid := by simp [State.renormalise]
@[simp] theorem State.prim_renormalise (s : State) (b : Nat) :
    (s.renormalise b).prim = s.prim := by simp [State.renormalise]
@[simp] theorem State.tab_renormalise (s : State) (b : Nat) :
    (s.renormalise b).tab = s.tab := by simp [State.renormalise]
@[simp] theorem State.vstate_renormalise (s : State) (b : Nat) :
    (s.renormalise b).vstate = s.vstate := by simp [State.renormalise]
@[simp] theorem State.rate_renormalise (s : State) (b : Nat) :
    (s.renormalise b).rate = s.rate := by simp [State.renormalise]
@[simp] theorem State.order_renormalise (s : State) (b : Nat) :
    (s.renormalise b).order = s.order := by simp [State.renormalise]
@[simp] theorem State.poly_renormalise (s : State) (b : Nat) :
    (s.renormalise b).poly = s.poly := by simp [State.renormalise]
@[simp] theorem State.softmode_renormalise (s : State) (b : Nat) :
    (s.renormalise b).softmode = s.softmode := by simp [State.renormalise]
@[simp] theorem State.sym_renormalise (s : State) (b : Nat) :
    (s.renormalise b).sym = s.sym := by simp [State.renormalise]
@[simp] theorem State.outtab_renormalise (s : State) (b : Nat) :
    (s.renormalise b).outtab = s.outtab := by simp [State.renormalise]
@[simp] theorem State.tbmin_renormalise (s : State) (b : Nat) :
    (s.renormalise b).tbmin = s.tbmin := by simp [State.renormalise]
@[simp] theorem State.tbburst_renormalise (s : State) (b : Nat) :
    (s.renormalise b).tbburst = s.tbburst := by simp [State.renormalise]
@[simp] theorem State.cap_renormalise (s : State) (b : Nat) :
    (s.renormalise b).cap = s.cap := by simp [State.renormalise]
@[simp] theorem State.rint_renormalise (s : State) (b : Nat) :
    (s.renormalise b).rint = s.rint := by simp [State.renormalise]
@[simp] theorem State.pmsel_renormalise (s : State) (b : Nat) :
    (s.renormalise b).pmsel = s.pmsel := by simp [State.renormalise]
@[simp] theorem State.dist_renormalise (s : State) (b : Nat) :
    (s.renormalise b).dist = s.dist := by simp [State.renormalise]
@[simp] theorem State.hist_renormalise (s : State) (b : Nat) :
    (s.renormalise b).hist = s.hist := by simp [State.renormalise]
@[simp] theorem State.hidx_renormalise (s : State) (b : Nat) :
    (s.renormalise b).hidx = s.hidx := by simp [State.renormalise]
@[simp] theorem State.hlen_renormalise (s : State) (b : Nat) :
    (s.renormalise b).hlen = s.hlen := by simp [State.renormalise]
@[simp] theorem State.rcnt_renormalise (s : State) (b : Nat) :
    (s.renormalise b).rcnt = s.rcnt := by simp [State.renormalise]
@[simp] theorem State.slice_renormalise (s : State) (b : Nat) :
    (s.renormalise b).slice = s.slice := by simp [State.renormalise]
@[simp] theorem State.sets_renormalise (s : State) (b : Nat) :
    (s.renormalise b).sets = s.sets := by simp [State.renormalise]
@[simp] theorem State.outq_renormalise (s : State) (b : Nat) :
    (s.renormalise b).outq = s.outq := by simp [State.renormalise]
@[simp] theorem State.esr_renormalise (s : State) (b : Nat) :
    (s.renormalise b).esr = s.esr := by simp [State.renormalise]
@[simp] theorem State.scr0_renormalise (s : State) (b : Nat) :
    (s.renormalise b).scr0 = s.scr0 := by simp [State.renormalise]
@[simp] theorem State.scr1_renormalise (s : State) (b : Nat) :
    (s.renormalise b).scr1 = s.scr1 := by simp [State.renormalise]
@[simp] theorem State.rsel_renormalise (s : State) (b : Nat) :
    (s.renormalise b).rsel = s.rsel := by simp [State.renormalise]
@[simp] theorem State.host_renormalise (s : State) (b : Nat) :
    (s.renormalise b).host = s.host := by simp [State.renormalise]
@[simp] theorem State.draws_renormalise (s : State) (b : Nat) :
    (s.renormalise b).draws = s.draws := by simp [State.renormalise]

/-- The write bank after it is replaced. -/
@[simp] theorem State.writeBank_setWriteBank (s : State) (w : List Metric) :
    (s.setWriteBank w).writeBank = w := by
  unfold State.setWriteBank State.writeBank pick; cases h : s.pmsel <;> simp

/-- The read bank is not the write bank. -/
@[simp] theorem State.readBank_setWriteBank (s : State) (w : List Metric) :
    (s.setWriteBank w).readBank = s.readBank := by
  unfold State.setWriteBank State.readBank pick; cases h : s.pmsel <;> simp

/-- After the end of a slice the bank just written is the read bank (R179). -/
@[simp] theorem State.readBank_endSlice (s : State) : s.endSlice.readBank = s.writeBank := by
  unfold State.endSlice State.readBank State.writeBank pick; cases s.pmsel <;> rfl

end Sys2Proof.Machine
end

