-- ==== Sys2Proof/Laws/Ops.lean ====
section
/-! SUPPORT. What each shared operation can do, said once. -/

namespace Sys2Proof.Machine

open Sys2Proof

/-! ## The checks of a command -/

@[simp] theorem firstCause_nil : firstCause [] = none := rfl

@[simp] theorem firstCause_cons (c : Check) (l : List Check) :
    firstCause (c :: l) = if c.1 then some c.2 else firstCause l := rfl

@[simp] theorem raises_fst (c : Cause) (p : Prop) [Decidable p] : (raises c p).1 = decide p := rfl

@[simp] theorem raises_snd (c : Cause) (p : Prop) [Decidable p] : (raises c p).2 = c := rfl

/-- No condition holds exactly when each is false. -/
theorem firstCause_eq_none {l : List Check} : firstCause l = none ↔ ∀ c ∈ l, c.1 = false := by
  induction l with
  | nil => simp
  | cons c l ih => cases h : c.1 <;> simp [h, ih]

/-- The cause reported is that of a condition that holds. -/
theorem firstCause_mem {l : List Check} {c : Cause} (h : firstCause l = some c) : (true, c) ∈ l := by
  induction l with
  | nil => simp at h
  | cons a l ih =>
    obtain ⟨b, c'⟩ := a
    cases b with
    | true => simp at h; simp [h]
    | false => simp at h; exact List.mem_cons_of_mem _ (ih h)

/-- EVERYTHING `attempt` CAN DO: it answers a next state, either the latched one, where a condition
holds, or the effect's, where none does. -/
theorem attempt_cases (i : Instr) (s : State) (checks : List Check) (effect : State → State) :
    (∃ c, firstCause checks = some c ∧ attempt i s checks effect = .next (s.latch c (encode i))) ∨
    (firstCause checks = none ∧ attempt i s checks effect = .next (effect s)) := by
  unfold attempt
  cases h : firstCause checks with
  | some c => exact .inl ⟨c, rfl, rfl⟩
  | none => exact .inr ⟨rfl, rfl⟩

/-- `attempt` where no condition holds. -/
theorem attempt_of_none {i : Instr} {s : State} {checks : List Check} {effect : State → State}
    (h : firstCause checks = none) : attempt i s checks effect = .next (effect s) := by
  simp [attempt, h]

/-- `attempt` where a condition holds. -/
theorem attempt_of_some {i : Instr} {s : State} {checks : List Check} {effect : State → State}
    {c : Cause} (h : firstCause checks = some c) :
    attempt i s checks effect = .next (s.latch c (encode i)) := by
  simp [attempt, h]

/-- A property of the state that latching a fault keeps, and that the effect keeps where no condition
holds, is kept by the command. -/
theorem attempt_keeps {P : State → Prop} {i : Instr} {s t : State} {checks : List Check}
    {effect : State → State} (hl : ∀ c, P (s.latch c (encode i)))
    (he : firstCause checks = none → P (effect s)) (h : attempt i s checks effect = .next t) : P t := by
  rcases attempt_cases i s checks effect with ⟨c, _, e⟩ | ⟨hn, e⟩
  · rw [e] at h; cases h; exact hl c
  · rw [e] at h; cases h; exact he hn

/-! ## The latch -/

/-- A cause code is one of 1 to 10 (R261). -/
theorem Cause.code_bounds (c : Cause) : 1 ≤ c.code.toNat ∧ c.code.toNat ≤ 10 := by
  cases c <;> decide

/-- The codes tell the causes apart (R261). -/
theorem Cause.code_injective {c c' : Cause} (h : c.code = c'.code) : c = c' := by
  cases c <;> cases c' <;> first | rfl | (revert h; decide)

/-- Clearing a latched fault (R214). -/
theorem State.clearLatch_of_fault {s : State} (h : s.fault = true) :
    s.clearLatch = { s with fault := false, cause := 0, einfo := 0 } := by
  simp [State.clearLatch, h]

/-- Clearing with no fault latched (R214). -/
theorem State.clearLatch_of_clear {s : State} (h : s.fault = false) : s.clearLatch = s := by
  simp [State.clearLatch, h]

/-! ## Lists replaced at some indices -/

@[simp] theorem replaceAt_length {α : Type} (l : List α) (active : Nat → Bool) (f : Nat → α) :
    (replaceAt l active f).length = l.length := by
  simp [replaceAt]

/-- Reading an entry after `replaceAt`. -/
theorem replaceAt_getD {α : Type} (l : List α) (active : Nat → Bool) (f : Nat → α) (k : Nat) (z : α) :
    (replaceAt l active f).getD k z = if k < l.length ∧ active k = true then f k else l.getD k z := by
  by_cases h : k < l.length
  · by_cases a : active k = true <;> simp [replaceAt, List.getD, h, a]
  · simp [replaceAt, List.getD, h]

/-! ## Traceback -/

/-- A path back has one bit for each slot walked. -/
@[simp] theorem State.length_pathBits (s : State) (n idx st : Nat) :
    (s.pathBits n idx st).length = n := by
  induction n generalizing idx st with
  | zero => rfl
  | succ n ih => simp [State.pathBits, ih]

/-! ## Issuing -/

/-- EVERYTHING A STEP CAN DO: the block idles, is reset, ignores a word while the latch is set, runs
`CLRF`, runs a decoded command, or latches `IllegalCommand`. -/
theorem step_cases (s : State) :
    (s.host = [] ∧ step s = .next s) ∨
    (∃ rest, s.host = .reset :: rest ∧ step s = .next ({ s with host := rest }).afterReset) ∨
    (∃ w rest, s.host = .command w :: rest ∧ s.fault = true ∧ w ≠ clrfWord ∧
      step s = .next { s with host := rest }) ∨
    (∃ rest, s.host = .command clrfWord :: rest ∧ s.fault = true ∧
      step s = exec .clrf { s with host := rest }) ∨
    (∃ w rest i, s.host = .command w :: rest ∧ s.fault = false ∧ decode w = some i ∧
      step s = exec i { s with host := rest }) ∨
    (∃ w rest, s.host = .command w :: rest ∧ s.fault = false ∧ decode w = none ∧
      step s = .next (({ s with host := rest } : State).latch .illegalCommand w)) := by
  match hh : s.host with
  | [] => exact .inl ⟨rfl, by simp [step, State.nextEvent, hh]⟩
  | .reset :: rest => exact .inr (.inl ⟨rest, rfl, by simp [step, State.nextEvent, hh]⟩)
  | .command w :: rest =>
    cases hf : s.fault with
    | true =>
      by_cases hw : w = clrfWord
      · subst hw
        refine .inr (.inr (.inr (.inl ⟨rest, rfl, rfl, ?_⟩)))
        simp [step, State.nextEvent, presentWord, hh, hf]
      · refine .inr (.inr (.inl ⟨w, rest, rfl, rfl, hw, ?_⟩))
        simp [step, State.nextEvent, presentWord, hh, hf, hw]
    | false =>
      cases hd : decode w with
      | some i =>
        refine .inr (.inr (.inr (.inr (.inl ⟨w, rest, i, rfl, rfl, hd, ?_⟩))))
        simp [step, State.nextEvent, presentWord, hh, hf, hd]
      | none =>
        refine .inr (.inr (.inr (.inr (.inr ⟨w, rest, rfl, rfl, hd, ?_⟩))))
        simp [step, State.nextEvent, presentWord, hh, hf, hd]

end Sys2Proof.Machine
end

