-- ==== Sys2Proof/Laws/PerInstr.lean ====
section
/-! SUPPORT. The laws made per instruction. `RowMatch`: an instruction's word is of the opcode table's
row that carries its mnemonic (R75: the fields it uses are free, every other bit is as the row fixes
it). -/

namespace Sys2Proof.Laws

open Sys2Proof

/-- A format R word under the mask of its row: the opcode, and the fields that the row masks out
gone. -/
theorem wordR_and_mask (op : BitVec 8) (d a b md ma mb : BitVec 4) (hd : d &&& md = 0)
    (ha : a &&& ma = 0) (hb : b &&& mb = 0) :
    wordR op d a b &&& (0xFF#8 ++ md ++ ma ++ mb ++ 0xFFF#12) = wordR op 0 0 0 := by
  have ho : op &&& 0xFF#8 = op := by simpa using BitVec.and_allOnes (x := op)
  have h : ((op ++ d ++ a ++ b ++ 0#12 : BitVec (8 + 4 + 4 + 4 + 12)) &&&
      (0xFF#8 ++ md ++ ma ++ mb ++ 0xFFF#12)) = op ++ 0#4 ++ 0#4 ++ 0#4 ++ 0#12 := by
    simp only [BitVec.and_append, hd, ha, hb, ho, BitVec.zero_and]; rfl
  exact h

/-- A format I word under the mask of its row. -/
theorem wordI_and_mask (op : BitVec 8) (d md : BitVec 4) (imm : BitVec 16) (hd : d &&& md = 0) :
    wordI op d imm &&& (0xFF#8 ++ md ++ 0xF#4 ++ 0#16) = wordI op 0 0 := by
  have ho : op &&& 0xFF#8 = op := by simpa using BitVec.and_allOnes (x := op)
  have h : ((op ++ d ++ 0#4 ++ imm : BitVec (8 + 4 + 4 + 16)) &&&
      (0xFF#8 ++ md ++ 0xF#4 ++ 0#16)) = op ++ 0#4 ++ 0#4 ++ 0#16 := by
    simp only [BitVec.and_append, hd, ho, BitVec.zero_and, BitVec.and_zero]; rfl
  exact h

/-- The word of `i` is of the row that carries its mnemonic. -/
def RowMatch.Statement (i : Instr) : Prop :=
  ∃ r ∈ opcodeRows, r.mnemonic = i.mnemonic ∧ r.covers (encode i)

theorem RowMatch.nop : RowMatch.Statement .nop :=
  ⟨⟨"NOP", 0x00000000#32, 0xFFFFFFFF#32⟩, by simp [opcodeRows], rfl,
    wordR_and_mask _ _ _ _ 0xF#4 0xF#4 0xF#4 (by simp) (by simp) (by simp)⟩

theorem RowMatch.li (d : XReg) (imm : BitVec 16) : RowMatch.Statement (.li d imm) :=
  ⟨⟨"LI", 0x01000000#32, 0xFF0F0000#32⟩, by simp [opcodeRows], rfl,
    wordI_and_mask _ _ 0#4 _ (by simp)⟩

theorem RowMatch.lih (d : XReg) (imm : BitVec 16) : RowMatch.Statement (.lih d imm) :=
  ⟨⟨"LIH", 0x02000000#32, 0xFF0F0000#32⟩, by simp [opcodeRows], rfl,
    wordI_and_mask _ _ 0#4 _ (by simp)⟩

theorem RowMatch.mov (d a : XReg) : RowMatch.Statement (.mov d a) :=
  ⟨⟨"MOV", 0x03000000#32, 0xFF00FFFF#32⟩, by simp [opcodeRows], rfl,
    wordR_and_mask _ _ _ _ 0#4 0#4 0xF#4 (by simp) (by simp) (by simp)⟩

theorem RowMatch.clrf : RowMatch.Statement .clrf :=
  ⟨⟨"CLRF", 0x04000000#32, 0xFFFFFFFF#32⟩, by simp [opcodeRows], rfl,
    wordR_and_mask _ _ _ _ 0xF#4 0xF#4 0xF#4 (by simp) (by simp) (by simp)⟩

theorem RowMatch.gfBuild (a : XReg) : RowMatch.Statement (.gfBuild a) :=
  ⟨⟨"GF.BUILD", 0x10000000#32, 0xFFF0FFFF#32⟩, by simp [opcodeRows], rfl,
    wordR_and_mask _ _ _ _ 0xF#4 0#4 0xF#4 (by simp) (by simp) (by simp)⟩

theorem RowMatch.gfAdd (d a b : XReg) : RowMatch.Statement (.gfAdd d a b) :=
  ⟨⟨"GF.ADD", 0x11000000#32, 0xFF000FFF#32⟩, by simp [opcodeRows], rfl,
    wordR_and_mask _ _ _ _ 0#4 0#4 0#4 (by simp) (by simp) (by simp)⟩

theorem RowMatch.gfSub (d a b : XReg) : RowMatch.Statement (.gfSub d a b) :=
  ⟨⟨"GF.SUB", 0x12000000#32, 0xFF000FFF#32⟩, by simp [opcodeRows], rfl,
    wordR_and_mask _ _ _ _ 0#4 0#4 0#4 (by simp) (by simp) (by simp)⟩

theorem RowMatch.gfMul (d a b : XReg) : RowMatch.Statement (.gfMul d a b) :=
  ⟨⟨"GF.MUL", 0x13000000#32, 0xFF000FFF#32⟩, by simp [opcodeRows], rfl,
    wordR_and_mask _ _ _ _ 0#4 0#4 0#4 (by simp) (by simp) (by simp)⟩

theorem RowMatch.gfDiv (d a b : XReg) : RowMatch.Statement (.gfDiv d a b) :=
  ⟨⟨"GF.DIV", 0x14000000#32, 0xFF000FFF#32⟩, by simp [opcodeRows], rfl,
    wordR_and_mask _ _ _ _ 0#4 0#4 0#4 (by simp) (by simp) (by simp)⟩

theorem RowMatch.gfSum (d a b : XReg) : RowMatch.Statement (.gfSum d a b) :=
  ⟨⟨"GF.SUM", 0x15000000#32, 0xFF000FFF#32⟩, by simp [opcodeRows], rfl,
    wordR_and_mask _ _ _ _ 0#4 0#4 0#4 (by simp) (by simp) (by simp)⟩

theorem RowMatch.gfPow (d a b : XReg) : RowMatch.Statement (.gfPow d a b) :=
  ⟨⟨"GF.POW", 0x16000000#32, 0xFF000FFF#32⟩, by simp [opcodeRows], rfl,
    wordR_and_mask _ _ _ _ 0#4 0#4 0#4 (by simp) (by simp) (by simp)⟩

theorem RowMatch.gfLog (d a : XReg) : RowMatch.Statement (.gfLog d a) :=
  ⟨⟨"GF.LOG", 0x17000000#32, 0xFF00FFFF#32⟩, by simp [opcodeRows], rfl,
    wordR_and_mask _ _ _ _ 0#4 0#4 0xF#4 (by simp) (by simp) (by simp)⟩

theorem RowMatch.gfExp (d a : XReg) : RowMatch.Statement (.gfExp d a) :=
  ⟨⟨"GF.EXP", 0x18000000#32, 0xFF00FFFF#32⟩, by simp [opcodeRows], rfl,
    wordR_and_mask _ _ _ _ 0#4 0#4 0xF#4 (by simp) (by simp) (by simp)⟩

theorem RowMatch.gfMullog (d a b : XReg) : RowMatch.Statement (.gfMullog d a b) :=
  ⟨⟨"GF.MULLOG", 0x19000000#32, 0xFF000FFF#32⟩, by simp [opcodeRows], rfl,
    wordR_and_mask _ _ _ _ 0#4 0#4 0#4 (by simp) (by simp) (by simp)⟩

theorem RowMatch.gfDivlog (d a b : XReg) : RowMatch.Statement (.gfDivlog d a b) :=
  ⟨⟨"GF.DIVLOG", 0x1A000000#32, 0xFF000FFF#32⟩, by simp [opcodeRows], rfl,
    wordR_and_mask _ _ _ _ 0#4 0#4 0#4 (by simp) (by simp) (by simp)⟩

theorem RowMatch.pSetord (d : PReg) (n : Nat) : RowMatch.Statement (.pSetord d n) :=
  ⟨⟨"P.SETORD", 0x20000000#32, 0xFF0F0000#32⟩, by simp [opcodeRows], rfl,
    wordI_and_mask _ _ 0#4 _ (by simp)⟩

theorem RowMatch.pGetord (d : XReg) (a : PReg) : RowMatch.Statement (.pGetord d a) :=
  ⟨⟨"P.GETORD", 0x21000000#32, 0xFF00FFFF#32⟩, by simp [opcodeRows], rfl,
    wordR_and_mask _ _ _ _ 0#4 0#4 0xF#4 (by simp) (by simp) (by simp)⟩

theorem RowMatch.pLdc (d : PReg) (a b : XReg) : RowMatch.Statement (.pLdc d a b) :=
  ⟨⟨"P.LDC", 0x22000000#32, 0xFF000FFF#32⟩, by simp [opcodeRows], rfl,
    wordR_and_mask _ _ _ _ 0#4 0#4 0#4 (by simp) (by simp) (by simp)⟩

theorem RowMatch.pStc (d : XReg) (a : PReg) (b : XReg) : RowMatch.Statement (.pStc d a b) :=
  ⟨⟨"P.STC", 0x23000000#32, 0xFF000FFF#32⟩, by simp [opcodeRows], rfl,
    wordR_and_mask _ _ _ _ 0#4 0#4 0#4 (by simp) (by simp) (by simp)⟩

theorem RowMatch.pClr (d : PReg) : RowMatch.Statement (.pClr d) :=
  ⟨⟨"P.CLR", 0x24000000#32, 0xFF0FFFFF#32⟩, by simp [opcodeRows], rfl,
    wordR_and_mask _ _ _ _ 0#4 0xF#4 0xF#4 (by simp) (by simp) (by simp)⟩

theorem RowMatch.pMov (d a : PReg) : RowMatch.Statement (.pMov d a) :=
  ⟨⟨"P.MOV", 0x25000000#32, 0xFF00FFFF#32⟩, by simp [opcodeRows], rfl,
    wordR_and_mask _ _ _ _ 0#4 0#4 0xF#4 (by simp) (by simp) (by simp)⟩

theorem RowMatch.pMul (d a b : PReg) : RowMatch.Statement (.pMul d a b) :=
  ⟨⟨"P.MUL", 0x26000000#32, 0xFF000FFF#32⟩, by simp [opcodeRows], rfl,
    wordR_and_mask _ _ _ _ 0#4 0#4 0#4 (by simp) (by simp) (by simp)⟩

theorem RowMatch.pMod (d a b : PReg) : RowMatch.Statement (.pMod d a b) :=
  ⟨⟨"P.MOD", 0x27000000#32, 0xFF000FFF#32⟩, by simp [opcodeRows], rfl,
    wordR_and_mask _ _ _ _ 0#4 0#4 0#4 (by simp) (by simp) (by simp)⟩

theorem RowMatch.pDer (d a : PReg) : RowMatch.Statement (.pDer d a) :=
  ⟨⟨"P.DER", 0x28000000#32, 0xFF00FFFF#32⟩, by simp [opcodeRows], rfl,
    wordR_and_mask _ _ _ _ 0#4 0#4 0xF#4 (by simp) (by simp) (by simp)⟩

theorem RowMatch.pEval (d : XReg) (a : PReg) (b : XReg) : RowMatch.Statement (.pEval d a b) :=
  ⟨⟨"P.EVAL", 0x29000000#32, 0xFF000FFF#32⟩, by simp [opcodeRows], rfl,
    wordR_and_mask _ _ _ _ 0#4 0#4 0#4 (by simp) (by simp) (by simp)⟩

theorem RowMatch.pPows (d : PReg) (a : XReg) : RowMatch.Statement (.pPows d a) :=
  ⟨⟨"P.POWS", 0x2A000000#32, 0xFF00FFFF#32⟩, by simp [opcodeRows], rfl,
    wordR_and_mask _ _ _ _ 0#4 0#4 0xF#4 (by simp) (by simp) (by simp)⟩

theorem RowMatch.pEvalp (d : XReg) (a b : PReg) : RowMatch.Statement (.pEvalp d a b) :=
  ⟨⟨"P.EVALP", 0x2B000000#32, 0xFF000FFF#32⟩, by simp [opcodeRows], rfl,
    wordR_and_mask _ _ _ _ 0#4 0#4 0#4 (by simp) (by simp) (by simp)⟩

theorem RowMatch.pTolog (d a : PReg) : RowMatch.Statement (.pTolog d a) :=
  ⟨⟨"P.TOLOG", 0x2C000000#32, 0xFF00FFFF#32⟩, by simp [opcodeRows], rfl,
    wordR_and_mask _ _ _ _ 0#4 0#4 0xF#4 (by simp) (by simp) (by simp)⟩

theorem RowMatch.pEvall (d : XReg) (a b : PReg) : RowMatch.Statement (.pEvall d a b) :=
  ⟨⟨"P.EVALL", 0x2D000000#32, 0xFF000FFF#32⟩, by simp [opcodeRows], rfl,
    wordR_and_mask _ _ _ _ 0#4 0#4 0#4 (by simp) (by simp) (by simp)⟩

theorem RowMatch.pRoots (d a : PReg) : RowMatch.Statement (.pRoots d a) :=
  ⟨⟨"P.ROOTS", 0x2E000000#32, 0xFF00FFFF#32⟩, by simp [opcodeRows], rfl,
    wordR_and_mask _ _ _ _ 0#4 0#4 0xF#4 (by simp) (by simp) (by simp)⟩

theorem RowMatch.pLdci (d : PReg) (idx val : Byte) : RowMatch.Statement (.pLdci d idx val) :=
  ⟨⟨"P.LDCI", 0x2F000000#32, 0xFF0F0000#32⟩, by simp [opcodeRows], rfl,
    wordI_and_mask _ _ 0#4 _ (by simp)⟩

theorem RowMatch.bmHard (d a b : XReg) : RowMatch.Statement (.bmHard d a b) :=
  ⟨⟨"BM.HARD", 0x30000000#32, 0xFF000FFF#32⟩, by simp [opcodeRows], rfl,
    wordR_and_mask _ _ _ _ 0#4 0#4 0#4 (by simp) (by simp) (by simp)⟩

theorem RowMatch.bmSoftl (d a : XReg) : RowMatch.Statement (.bmSoftl d a) :=
  ⟨⟨"BM.SOFTL", 0x31000000#32, 0xFF00FFFF#32⟩, by simp [opcodeRows], rfl,
    wordR_and_mask _ _ _ _ 0#4 0#4 0xF#4 (by simp) (by simp) (by simp)⟩

theorem RowMatch.bmSoftq (d a : XReg) : RowMatch.Statement (.bmSoftq d a) :=
  ⟨⟨"BM.SOFTQ", 0x32000000#32, 0xFF00FFFF#32⟩, by simp [opcodeRows], rfl,
    wordR_and_mask _ _ _ _ 0#4 0#4 0xF#4 (by simp) (by simp) (by simp)⟩

theorem RowMatch.bmSym (j : Nat) (a : XReg) : RowMatch.Statement (.bmSym j a) :=
  ⟨⟨"BM.SYM", 0x33000000#32, 0xFF00FFFF#32⟩, by simp [opcodeRows], rfl,
    wordR_and_mask _ _ _ _ 0#4 0#4 0xF#4 (by simp) (by simp) (by simp)⟩

theorem RowMatch.bmSymi (j n : Nat) : RowMatch.Statement (.bmSymi j n) :=
  ⟨⟨"BM.SYMI", 0x34000000#32, 0xFF0F0000#32⟩, by simp [opcodeRows], rfl,
    wordI_and_mask _ _ 0#4 _ (by simp)⟩

theorem RowMatch.vtCfg (a b : XReg) : RowMatch.Statement (.vtCfg a b) :=
  ⟨⟨"VT.CFG", 0x40000000#32, 0xFFF00FFF#32⟩, by simp [opcodeRows], rfl,
    wordR_and_mask _ _ _ _ 0xF#4 0#4 0#4 (by simp) (by simp) (by simp)⟩

theorem RowMatch.vtInit : RowMatch.Statement .vtInit :=
  ⟨⟨"VT.INIT", 0x41000000#32, 0xFFFFFFFF#32⟩, by simp [opcodeRows], rfl,
    wordR_and_mask _ _ _ _ 0xF#4 0xF#4 0xF#4 (by simp) (by simp) (by simp)⟩

theorem RowMatch.vtReset (a : XReg) : RowMatch.Statement (.vtReset a) :=
  ⟨⟨"VT.RESET", 0x42000000#32, 0xFFF0FFFF#32⟩, by simp [opcodeRows], rfl,
    wordR_and_mask _ _ _ _ 0xF#4 0#4 0xF#4 (by simp) (by simp) (by simp)⟩

theorem RowMatch.vtSteph (a : XReg) : RowMatch.Statement (.vtSteph a) :=
  ⟨⟨"VT.STEPH", 0x43000000#32, 0xFFF0FFFF#32⟩, by simp [opcodeRows], rfl,
    wordR_and_mask _ _ _ _ 0xF#4 0#4 0xF#4 (by simp) (by simp) (by simp)⟩

theorem RowMatch.vtSteps : RowMatch.Statement .vtSteps :=
  ⟨⟨"VT.STEPS", 0x44000000#32, 0xFFFFFFFF#32⟩, by simp [opcodeRows], rfl,
    wordR_and_mask _ _ _ _ 0xF#4 0xF#4 0xF#4 (by simp) (by simp) (by simp)⟩

theorem RowMatch.vtFlush : RowMatch.Statement .vtFlush :=
  ⟨⟨"VT.FLUSH", 0x45000000#32, 0xFFFFFFFF#32⟩, by simp [opcodeRows], rfl,
    wordR_and_mask _ _ _ _ 0xF#4 0xF#4 0xF#4 (by simp) (by simp) (by simp)⟩

theorem RowMatch.vtMode (n : Nat) : RowMatch.Statement (.vtMode n) :=
  ⟨⟨"VT.MODE", 0x46000000#32, 0xFFFF0000#32⟩, by simp [opcodeRows], rfl,
    wordI_and_mask _ _ 0xF#4 _ (by simp)⟩

theorem RowMatch.encRst : RowMatch.Statement .encRst :=
  ⟨⟨"ENC.RST", 0x47000000#32, 0xFFFFFFFF#32⟩, by simp [opcodeRows], rfl,
    wordR_and_mask _ _ _ _ 0xF#4 0xF#4 0xF#4 (by simp) (by simp) (by simp)⟩

theorem RowMatch.encBit (d a : XReg) : RowMatch.Statement (.encBit d a) :=
  ⟨⟨"ENC.BIT", 0x48000000#32, 0xFF00FFFF#32⟩, by simp [opcodeRows], rfl,
    wordR_and_mask _ _ _ _ 0#4 0#4 0xF#4 (by simp) (by simp) (by simp)⟩

theorem RowMatch.vtQlen (d : XReg) : RowMatch.Statement (.vtQlen d) :=
  ⟨⟨"VT.QLEN", 0x49000000#32, 0xFF0FFFFF#32⟩, by simp [opcodeRows], rfl,
    wordR_and_mask _ _ _ _ 0#4 0xF#4 0xF#4 (by simp) (by simp) (by simp)⟩

theorem RowMatch.vtRdq (d a : XReg) : RowMatch.Statement (.vtRdq d a) :=
  ⟨⟨"VT.RDQ", 0x4A000000#32, 0xFF00FFFF#32⟩, by simp [opcodeRows], rfl,
    wordR_and_mask _ _ _ _ 0#4 0#4 0xF#4 (by simp) (by simp) (by simp)⟩

theorem RowMatch.vtTab (d a : XReg) : RowMatch.Statement (.vtTab d a) :=
  ⟨⟨"VT.TAB", 0x4B000000#32, 0xFF00FFFF#32⟩, by simp [opcodeRows], rfl,
    wordR_and_mask _ _ _ _ 0#4 0#4 0xF#4 (by simp) (by simp) (by simp)⟩

theorem RowMatch.vtPm (d a : XReg) : RowMatch.Statement (.vtPm d a) :=
  ⟨⟨"VT.PM", 0x4C000000#32, 0xFF00FFFF#32⟩, by simp [opcodeRows], rfl,
    wordR_and_mask _ _ _ _ 0#4 0#4 0xF#4 (by simp) (by simp) (by simp)⟩

theorem RowMatch.vtPoly (j : Nat) (a : XReg) : RowMatch.Statement (.vtPoly j a) :=
  ⟨⟨"VT.POLY", 0x4D000000#32, 0xFF00FFFF#32⟩, by simp [opcodeRows], rfl,
    wordR_and_mask _ _ _ _ 0#4 0#4 0xF#4 (by simp) (by simp) (by simp)⟩

end Sys2Proof.Laws
end

