-- ==== Sys2Proof/Machine/HostDriver.lean ====
section
/-! DEFINITION. A host at work on the block (`48_host_sequences.md`, `30_encoding.md` R79): it presents
command words one at a time, reads the host read port between them, and does arithmetic of its own.
Nothing here adds state or behaviour to the block (R4); every effect is that of `step`. Which registers
a sequence uses is the host's own (log entry 23). -/

namespace Sys2Proof.Machine

open Sys2Proof

/-! ## Presenting commands -/

/-- The block after its host has presented the word of one command. -/
def present (s : State) (i : Instr) : State :=
  match step { s with host := .command (encode i) :: s.host } with
  | .next t => t
  | .fault _ => s
  | .refused _ => s

/-- What a host call reports instead of a result. -/
inductive HostFailure where
  /-- the source's `InvalidArgument`: raised by a host call before, or instead of, issuing commands, and
  where a construction command faults (safe: nothing is returned) -/
  | invalidArgument
  /-- the decode failed: raised by a Reed-Solomon decode (R231, R233; safe: nothing is returned) -/
  | decodeFailure
deriving DecidableEq, Repr

/-- A host procedure: it drives the block and ends in a result or a failure. The state of the block
after it is kept in both cases. -/
abbrev HostCall (α : Type) := ExceptT HostFailure (StateM State) α

/-- Issue the commands, in order. -/
def issue (commands : List Instr) : HostCall Unit := modify fun s => commands.foldl present s

/-- Read the host read port (R29). -/
def readPort (n : Nat) : HostCall Word := do return (← get).hostRead n

/-- If a fault is latched, acknowledge it with `CLRF` and report the failure (R267, R233). -/
def failOnFault (f : HostFailure) : HostCall Unit := do
  if (← readPort 0x010).getLsbD 0 then
    issue [.clrf]
    throw f

/-! ## Pseudo-commands (R79) -/

/-- `LI32 xd, v`. -/
def li32 (d : XReg) (v : Word) : List Instr := [.li d (v.setWidth 16), .lih d ((v >>> 16).setWidth 16)]

/-- `P.LOAD Pd, [c0, …, cn]`. -/
def pLoad (d : PReg) (c : List Byte) : List Instr :=
  .pSetord d (c.length - 1) :: c.zipIdx.map fun e => .pLdci d (BitVec.ofNat 8 e.2) e.1

/-- `P.ZERO Pd, n`. -/
def pZero (d : PReg) (n : Nat) : List Instr := [.pClr d, .pSetord d n]

/-- `VT.SOFT [s0, …]`. -/
def vtSoft (symbols : List Byte) : List Instr :=
  (symbols.zipIdx.map fun e => .bmSymi e.2 e.1.toNat) ++ [.vtSteps]

/-! ## One operation by one command: operands in `x1` and `x2`, the result in `x3` -/

/-- A field command on two operands. -/
def hostScalar (command : Instr) (a b : Word) : HostCall Word := do
  issue (li32 1 a ++ li32 2 b ++ [command])
  readPort 3

/-- `gf_mul`. -/
def hostMul (a b : Byte) : HostCall Byte := do
  return (← hostScalar (.gfMul 3 1 2) (a.setWidth 32) (b.setWidth 32)).setWidth 8

/-- `gf_div`: a zero divisor is decode failure (R233). -/
def hostDiv (a b : Byte) : HostCall Byte := do
  let v ← hostScalar (.gfDiv 3 1 2) (a.setWidth 32) (b.setWidth 32)
  failOnFault .decodeFailure
  return v.setWidth 8

/-- The exponent that the host presents for `n`: `n mod 255`. `GF.POW` reads its exponent as a signed
32-bit number (R106), while R232, R233 and R235 raise to `gap` and `fcr − 1`, which R220 does not bound:
that the host reduces every exponent so, and accepts every `fcr` and every `gap` coprime to 255, is a
DESIGN CHOICE (log entry 27). By R99 the power is that of `n` (`gfPow_hostExponent`). -/
def hostExponent (n : Int) : Int := Int.fmod n 255

/-- `gf_pow` for any integer exponent, presented as `hostExponent` says (log entry 27). -/
def hostPow (a : Byte) (n : Int) : HostCall Byte := do
  return (← hostScalar (.gfPow 3 1 2) (a.setWidth 32) (BitVec.ofInt 32 (hostExponent n))).setWidth 8

/-- `LOG[a]`. -/
def hostLog (a : Byte) : HostCall Byte := do
  return (← hostScalar (.gfLog 3 1) (a.setWidth 32) 0).setWidth 8

/-- `EXP[k]`. -/
def hostExp (k : Nat) : HostCall Byte := do
  return (← hostScalar (.gfExp 3 1) (BitVec.ofNat 32 k) 0).setWidth 8

/-- `poly_eval`: the value of a polynomial register at an element. -/
def hostEval (q : PReg) (v : Byte) : HostCall Byte := do
  return (← hostScalar (.pEval 3 q 1) (v.setWidth 32) 0).setWidth 8

/-- Coefficient `k` of a polynomial register, through the port (R29). -/
def hostCoefficient (q : PReg) (k : Nat) : HostCall Byte := do
  return (← readPort (0x1000 + 256 * (q : Nat) + k)).setWidth 8

/-! ## Bits and bytes (R56, R57) -/

/-- The bits of a byte, most significant first. -/
def byteBits (v : Byte) : List Bool := (List.range 8).map fun k => v.getLsbD (7 - k)

/-- The number whose bit `j` is the list's bit `j`. -/
def bitsNumber : List Bool → Nat
  | [] => 0
  | b :: rest => b.toNat + 2 * bitsNumber rest

/-- Bits packed into `n` bytes, most significant bit first, zeros after the last bit. -/
def packBits (bits : List Bool) (n : Nat) : List Byte :=
  (List.range n).map fun k =>
    BitVec.ofNat 8 (bitsNumber ((List.range 8).map fun j => bits.getD (8 * k + (7 - j)) false))

end Sys2Proof.Machine
end

