-- ==== Sys2Proof/Machine/ReedSolomon.lean ====
section
/-! DEFINITION. The Reed-Solomon calls as host sequences (`48_host_sequences.md` R220 to R235). Registers:
`P0` the generator, `P1` a list of roots, `P2` the message, `P3` the remainder, `P4` the locator, `P5` the
received polynomial, `P6` the locator in log form, `P7` a power table, `P8` the syndromes, `P9` the
evaluator, `P10` the derivative, `P11` the erasure locator, `P12` the modified syndromes, `P13` the
combined locator (log entry 23). What a call refuses before it issues a command beyond the rules' own
words is log entries 24 to 26. -/

namespace Sys2Proof.Machine

open Sys2Proof

/-- The parameters of a codec (R220): host data. -/
structure RsCodec where
  prim : Word
  minDistance : Nat
  fcr : Nat
  gap : Nat
deriving DecidableEq, Repr

/-- `messageLength` (R220). -/
def rsMessageLength (p : RsCodec) : Nat := 255 - p.minDistance

/-- The parameters under which commands may be issued (R220, U11): `minDistance` in 1..254 and `gap`
coprime to 255. -/
def rsParametersOk (p : RsCodec) : Bool :=
  decide (1 ≤ p.minDistance ∧ p.minDistance ≤ 254) && Nat.gcd p.gap 255 == 1

/-- U11's refusal: with other parameters a call ends before it issues a command. For `minDistance` R220
names the report, `InvalidArgument`; that a `gap` not coprime to 255 is reported so too is a DESIGN
CHOICE (log entry 26). -/
def rsRefuseParameters (p : RsCodec) : HostCall Unit := do
  if !rsParametersOk p then throw .invalidArgument

/-- Construction: the field, once between resets, and the generator polynomial (R220, R221, R291). The
result is the list of generator roots. -/
def rsConstruct (p : RsCodec) : HostCall (List Byte) := do
  rsRefuseParameters p
  issue (li32 1 p.prim ++ [.gfBuild 1])
  failOnFault .invalidArgument
  let roots ← (List.range p.minDistance).mapM fun i => hostExp (p.gap * (i + p.fcr) % 255)
  issue (pLoad 1 roots ++ [.pRoots 0 1])
  return roots

/-- Encode (R222): the message followed by the remainder, highest coefficient first. -/
def rsEncode (p : RsCodec) (msg : List Byte) : HostCall (List Byte) := do
  rsRefuseParameters p
  if rsMessageLength p < msg.length then throw .invalidArgument
  let pad := rsMessageLength p - msg.length
  issue (pZero 2 254)
  issue (msg.zipIdx.map fun e => .pLdci 2 (BitVec.ofNat 8 (254 - pad - e.2)) e.1)
  issue [.pSetord 3 254, .pMod 3 2 0]
  let parity ← (List.range p.minDistance).mapM fun k => hostCoefficient 3 (p.minDistance - 1 - k)
  return msg ++ parity

/-- Decode, steps 1 and 2: the received polynomial and its syndromes (R226, R227). -/
def rsSyndromes (roots enc : List Byte) : HostCall (List Byte) := do
  issue (pZero 5 254)
  issue (enc.zipIdx.map fun e => .pLdci 5 (BitVec.ofNat 8 (enc.length - 1 - e.2)) e.1)
  roots.mapM fun g => hostEval 5 g

/-- The variables of Berlekamp-Massey (R229): a locator and its order, the last one and its order. -/
structure Massey where
  locator : List Byte
  order : Nat
  last : List Byte
  lastOrder : Nat
  numErrors : Nat
  lastDisc : Byte
  delay : Nat
deriving DecidableEq, Repr

/-- The initial values of R229. -/
def masseyStart : Massey :=
  { locator := [1], order := 0, last := [1], lastOrder := 0, numErrors := 0, lastDisc := 1, delay := 1 }

/-- The discrepancy at index `i`. -/
def masseyDiscrepancy (m : Massey) (t : List Byte) (i : Nat) : HostCall Byte :=
  (List.range' 1 m.numErrors).foldlM (init := t.getD i 0) fun d j => do
    return d ^^^ (← hostMul (m.locator.getD j 0) (t.getD (i - j) 0))

/-- The last locator shifted by the delay and scaled by `disc / lastDisc`. -/
def masseyShifted (m : Massey) (disc : Byte) : HostCall (List Byte) := do
  let scaled ← (List.range (m.lastOrder + 1)).mapM fun j => do
    hostDiv (← hostMul (m.last.getD j 0) disc) m.lastDisc
  return List.replicate m.delay 0 ++ scaled

/-- The xor of two coefficient lists. -/
def xorLists (a b : List Byte) : List Byte :=
  (List.range (max a.length b.length)).map fun k => a.getD k 0 ^^^ b.getD k 0

/-- One turn of R229's loop. -/
def masseyStep (t : List Byte) (m : Massey) (i : Nat) : HostCall Massey := do
  let disc ← masseyDiscrepancy m t i
  if disc = 0 then return { m with delay := m.delay + 1 }
  let shifted ← masseyShifted m disc
  let locator := xorLists m.locator shifted
  if 2 * m.numErrors ≤ i then
    return { locator, order := m.lastOrder + m.delay, last := m.locator, lastOrder := m.order,
             numErrors := i + 1 - m.numErrors, lastDisc := disc, delay := 1 }
  return { m with locator, order := max m.order (m.lastOrder + m.delay), delay := m.delay + 1 }

/-- Decode, step 4: Berlekamp-Massey over `count` syndromes, the locator loaded into `P4`; the result is
its order (R229). -/
def rsLocator (t : List Byte) (count : Nat) : HostCall Nat := do
  let m ← (List.range count).foldlM (init := masseyStart) (masseyStep t)
  issue (pLoad 4 ((List.range (m.order + 1)).map fun k => m.locator.getD k 0))
  return m.order

/-- Decode, steps 5 and 6: the roots of the locator `P4` in increasing order, as many as its order or the
decode fails (R230, R231). -/
def rsChien (order : Nat) : HostCall (List Byte) := do
  issue [.pTolog 6 4]
  let roots ← (List.range 256).filterM fun e => do
    issue ([.pSetord 7 order] ++ li32 1 (BitVec.ofNat 32 e) ++ [.pPows 7 1, .pEvall 3 6 7])
    return (← readPort 3) == 0
  if roots.length ≠ order then throw .decodeFailure
  return roots.map (BitVec.ofNat 8)

/-- The first element from 1 whose power to `gap` is `x`, by its number. -/
def rsSearch (p : RsCodec) (x : Byte) : List Nat → HostCall Byte
  | [] => throw .decodeFailure
  | j :: rest => do
    if (← hostPow (BitVec.ofNat 8 j) p.gap) = x then return BitVec.ofNat 8 j
    rsSearch p x rest

/-- Decode, step 7: the coefficient index that a root stands for (R232). -/
def rsLocation (p : RsCodec) (rho : Byte) : HostCall Nat := do
  let j ← rsSearch p (← hostDiv 1 rho) (List.range' 1 255)
  return (← hostLog j).toNat % 255

/-- Decode, step 8: Forney's values at the roots, for the locator in the register `loc` (R233). -/
def rsForney (p : RsCodec) (loc : PReg) (roots : List Byte) : HostCall (List Byte) := do
  issue [.pSetord 9 (p.minDistance - 1), .pMul 9 loc 8, .pDer 10 loc]
  roots.mapM fun rho => do
    let ratio ← hostDiv (← hostEval 9 rho) (← hostEval 10 rho)
    hostMul (← hostPow rho ((p.fcr : Int) - 1)) ratio

/-- Decode, step 9: correct the received polynomial and read the message (R234). -/
def rsCorrect (p : RsCodec) (n : Nat) (corrections : List (Nat × Byte)) : HostCall (List Byte) := do
  for (location, value) in corrections do
    let old ← hostCoefficient 5 location
    issue [.pLdci 5 (BitVec.ofNat 8 location) (old ^^^ value)]
  (List.range (n - p.minDistance)).mapM fun i => hostCoefficient 5 (n - 1 - i)

/-- The length that a decode takes, `minDistance ≤ n ≤ 255`. R226 reports a longer input as
`InvalidArgument`; that a shorter one, which it excludes without naming a report, is reported so too is a
DESIGN CHOICE (log entry 24). -/
def rsRefuseLength (p : RsCodec) (n : Nat) : HostCall Unit := do
  if n < p.minDistance ∨ 255 < n then throw .invalidArgument

/-- Decode (R226 to R234), with the roots that construction returned. A block without errors is returned whole (R228). An input shorter than
`minDistance` is reported as `InvalidArgument`: DESIGN CHOICE (log entry 24). -/
def rsDecode (p : RsCodec) (roots enc : List Byte) : HostCall (List Byte) := do
  rsRefuseParameters p
  rsRefuseLength p enc.length
  let syndromes ← rsSyndromes roots enc
  if syndromes.all (· == 0) then return enc.take (enc.length - p.minDistance)
  issue (pLoad 8 syndromes)
  let order ← rsLocator syndromes p.minDistance
  let found ← rsChien order
  let locations ← found.mapM (rsLocation p)
  let values ← rsForney p 4 found
  rsCorrect p enc.length (locations.zip values)

/-- Decode with erasures at the byte indices `er` (R235); with none it is `rsDecode`. More erasures than
`minDistance` are `InvalidArgument` by R235. That an index not below `n`, which is no index into `enc`, is
`InvalidArgument` too is a DESIGN CHOICE (log entry 25), and so is that report for an input shorter than
`minDistance` (log entry 24). -/
def rsDecodeErasures (p : RsCodec) (roots enc : List Byte) (er : List Nat) : HostCall (List Byte) := do
  if er = [] then rsDecode p roots enc
  else
    let n := enc.length
    let ne := er.length
    rsRefuseParameters p
    rsRefuseLength p n
    if p.minDistance < ne ∨ er.any (n ≤ ·) then throw .invalidArgument
    let erased ← er.mapM fun k => do
      hostDiv 1 (← hostPow (← hostExp (255 - (k + (255 - n) + 1))) p.gap)
    issue (pLoad 1 erased ++ [.pRoots 11 1])
    let syndromes ← rsSyndromes roots enc
    if syndromes.all (· == 0) then return enc.take (n - p.minDistance)
    issue (pLoad 8 syndromes ++ [.pSetord 12 (p.minDistance - 1), .pMul 12 11 8])
    let modified ← (List.range (p.minDistance - ne)).mapM fun i => hostCoefficient 12 (ne + i)
    let order ← rsLocator modified (p.minDistance - ne)
    let found ← rsChien order
    issue [.pSetord 13 (order + ne), .pMul 13 11 4]
    let all := erased ++ found
    let locations ← all.mapM (rsLocation p)
    let values ← rsForney p 13 all
    rsCorrect p n (locations.zip values)

end Sys2Proof.Machine
end

