-- ==== Sys2Proof/Laws/ReedSolomon.lean ====
section
/-! SUPPORT. What the Reed-Solomon calls refuse before they issue a command (R220, U11, R226, R235), and
the exponents that they present (R99, R106). -/

namespace Sys2Proof.Machine

open Sys2Proof

/-- The exponent that a host presents is one that `GF.POW` reads as it is (R106). -/
theorem hostExponent_presented (n : Int) :
    (BitVec.ofInt 32 (hostExponent n)).toInt = hostExponent n := by
  have h0 := Int.fmod_nonneg_of_pos n (by decide : (0 : Int) < 255)
  have h1 := Int.fmod_lt_of_pos n (by decide : (0 : Int) < 255)
  rw [BitVec.toInt_ofInt]
  unfold hostExponent
  exact Int.bmod_eq_of_le (by omega) (by omega)

/-- The power at the exponent that a host presents is the power at the exponent itself (R99). -/
theorem gfPow_hostExponent (t : Tables) (a : Byte) (n : Int) :
    gfPow t a (hostExponent n) = gfPow t a n := by
  simp only [gfPow, hostExponent, Int.fmod_eq_emod_of_nonneg _ (by decide : (0 : Int) ≤ 255),
    Int.mul_emod, Int.emod_emod]

/-- Parameters outside R220's range end a construction with the block as it was. -/
theorem rsConstruct_refuses_parameters (p : RsCodec) (s : State) (h : rsParametersOk p = false) :
    (rsConstruct p).run.run s = (.error .invalidArgument, s) := by
  unfold rsConstruct rsRefuseParameters; simp only [h]; rfl

/-- Parameters outside R220's range end an encoding with the block as it was. -/
theorem rsEncode_refuses_parameters (p : RsCodec) (msg : List Byte) (s : State)
    (h : rsParametersOk p = false) : (rsEncode p msg).run.run s = (.error .invalidArgument, s) := by
  unfold rsEncode rsRefuseParameters; simp only [h]; rfl

/-- Parameters outside R220's range end a decoding with the block as it was. -/
theorem rsDecode_refuses_parameters (p : RsCodec) (roots enc : List Byte) (s : State)
    (h : rsParametersOk p = false) : (rsDecode p roots enc).run.run s = (.error .invalidArgument, s) := by
  unfold rsDecode rsRefuseParameters; simp only [h]; rfl

/-- An erasure index outside the input ends a decoding with the block as it was. -/
theorem rsDecodeErasures_refuses_index (p : RsCodec) (roots enc : List Byte) (er : List Nat) (s : State)
    (k : Nat) (hk : k ∈ er) (h : enc.length ≤ k) :
    (rsDecodeErasures p roots enc er).run.run s = (.error .invalidArgument, s) := by
  have he : er.any (enc.length ≤ ·) = true := List.any_eq_true.mpr ⟨k, hk, by simpa using h⟩
  have hn : er ≠ [] := List.ne_nil_of_mem hk
  unfold rsDecodeErasures rsRefuseParameters rsRefuseLength
  simp only [hn, he, or_true, if_true, if_false]
  cases rsParametersOk p <;> by_cases hl : enc.length < p.minDistance ∨ 255 < enc.length <;>
    simp only [hl, if_true, if_false] <;> rfl

end Sys2Proof.Machine
end

