-- ==== Sys2Proof/Laws/Trellis.lean ====
section
/-! SUPPORT. What the operations of the trellis unit can do, said once. -/

namespace Sys2Proof.Machine

open Sys2Proof

/-- A traceback writes `OUTQ` and `HLEN`: it emits the bits of the path back after the first `mind`
(R178). -/
theorem State.traceback_eq (s : State) (b mind : Nat) :
    s.traceback b mind = { s with
      outq := s.outq ++ ((s.pathBits s.hlen.toNat s.hidx.toNat b).drop mind).reverse
      hlen := s.hlen - BitVec.ofNat 16 (s.hlen.toNat - mind) } := by
  simp [State.traceback]

/-- A traceback with everything emitted empties the ring. -/
theorem State.hlen_traceback_zero (s : State) (b : Nat) : (s.traceback b 0).hlen = 0 := by
  simp [State.traceback]

/-- EVERYTHING HISTORY PROCESSING CAN DO (R168): count the slot, and then, by whether the interval is over
and the ring is full, nothing more, a renormalisation, a traceback, or both from one search. -/
theorem State.history_cases (s : State) (skip : Nat) :
    let t := s.countSlice
    let b := t.search skip
    (t.rcnt ≠ t.rint ∧ t.hlen ≠ t.cap ∧ s.history skip = t) ∨
    (t.rcnt ≠ t.rint ∧ t.hlen = t.cap ∧ s.history skip = t.traceback b t.tbmin.toNat) ∨
    (t.rcnt = t.rint ∧ (t.renormalise b).hlen ≠ (t.renormalise b).cap ∧
      s.history skip = { t.renormalise b with rcnt := 0 }) ∨
    (t.rcnt = t.rint ∧ (t.renormalise b).hlen = (t.renormalise b).cap ∧
      s.history skip =
        ({ t.renormalise b with rcnt := 0 } : State).traceback b (t.renormalise b).tbmin.toNat) := by
  simp only [State.history]
  split_ifs <;> simp_all

/-- EVERYTHING A SLICE CAN DO (R162): a warm-up slice, or an add-compare-select followed by history
processing, with the `skip` of its phase. -/
theorem State.slicePhase_cases (s : State) :
    (s.slice.toNat + 2 ≤ s.order.toNat ∧ s.slicePhase = s.warmUpSlice) ∨
    (s.order.toNat < s.slice.toNat + 2 ∧ s.slicePhase = (s.acsSlice s.phase.skip).history s.phase.skip) := by
  unfold State.slicePhase State.phase
  by_cases h : s.slice.toNat + 2 ≤ s.order.toNat
  · exact .inl ⟨h, by simp [h]⟩
  · refine .inr ⟨by omega, ?_⟩
    by_cases h' : s.slice.toNat + s.order.toNat ≤ s.sets.toNat <;> simp [h, h', Phase.skip]

/-- The metric that survives is the lesser of the two candidates (R165). -/
theorem State.toNat_survivorMetric (s : State) (st : Nat) :
    (s.survivorMetric st).toNat = min (s.candidate0 st).toNat (s.candidate1 st).toNat := by
  by_cases h : (s.candidate0 st).toNat ≤ (s.candidate1 st).toNat
  · simp [State.survivorMetric, State.survivor, pick, h]
  · simp [State.survivorMetric, State.survivor, pick, h]; omega

end Sys2Proof.Machine
end

