-- ==== Sys2Proof/Machine/ConvCodec.lean ====
section
/-! DEFINITION. The convolutional codec calls as host sequences (`48_host_sequences.md` R249 to R253). -/

namespace Sys2Proof.Machine

open Sys2Proof

/-- A number that a register is to be loaded with whole: one of 2^32 or more fits none, and that a call
reports it as `InvalidArgument` before it issues a command is a DESIGN CHOICE (log entry 29). -/
def convRefuseWide (n : Nat) : HostCall Unit := do
  if 2 ^ 32 ≤ n then throw .invalidArgument

/-- Construction (R249): one generator polynomial a tap, the configuration, and the decoder made ready. -/
def convConstruct (polys : List Word) (order : Nat) : HostCall Unit := do
  convRefuseWide order
  for (poly, j) in polys.zipIdx do
    issue (li32 1 poly ++ [.vtPoly j 1])
  failOnFault .invalidArgument
  issue (li32 1 (BitVec.ofNat 32 polys.length) ++ li32 2 (BitVec.ofNat 32 order) ++ [.vtCfg 1 2])
  failOnFault .invalidArgument
  issue [.vtInit]

/-- One input bit encoded: the `RATE` bits of its symbol, tap 0 first (R250, R56). -/
def convEncodeBit (rate : Nat) (bit : Bool) : HostCall (List Bool) := do
  issue (li32 1 (if bit then 1 else 0) ++ [.encBit 2 1])
  let symbol ← readPort 2
  return (List.range rate).map fun j => symbol.getLsbD j

/-- Encode (R250): the message bits, most significant first, then `ORDER + 1` zeros, packed. -/
def convEncode (msg : List Byte) : HostCall (List Byte) := do
  let rate := (← readPort 0x013).toNat
  let order := (← readPort 0x014).toNat
  issue [.encRst]
  let bits := msg.flatMap byteBits ++ List.replicate (order + 1) false
  let symbols ← bits.mapM (convEncodeBit rate)
  return packBits symbols.flatten ((rate * bits.length + 7) / 8)

/-- The number of message bytes that a decode of `sets` slices keeps, `floor((sets − ORDER − 1) / 8)`
(R252). For `ORDER = 2` and `sets = 2`, which R174 accepts, the dividend is −1, and the spec gives `floor`
for non-negative integers only: that 0 bytes are kept then is a DESIGN CHOICE (log entry 28). -/
def convKeptBytes (sets order : Nat) : Nat := if sets < order + 1 then 0 else (sets - order - 1) / 8

/-- The message that `OUTQ` holds after a decode of `sets` slices (R252). -/
def convResult (sets : Nat) : HostCall (List Byte) := do
  let order := (← readPort 0x014).toNat
  issue [.vtFlush]
  let count := (← readPort 0x01E).toNat
  let bits ← (List.range count).mapM fun k => do return (← readPort (0x4000 + k)) == 1
  return packBits bits (convKeptBytes sets order)

/-- Hard decode (R252) of a stream of bits, a multiple of `RATE` of them. -/
def convDecode (stream : List Bool) : HostCall (List Byte) := do
  let rate := (← readPort 0x013).toNat
  let sets := stream.length / rate
  convRefuseWide sets
  issue (li32 1 (BitVec.ofNat 32 sets) ++ [.vtReset 1])
  failOnFault .invalidArgument
  for i in List.range sets do
    let symbol := bitsNumber ((stream.drop (i * rate)).take rate)
    issue (li32 1 (BitVec.ofNat 32 symbol) ++ [.vtSteph 1])
  convResult sets

/-- Soft decode (R253) of a stream of soft symbols, one byte for each encoded bit. -/
def convDecodeSoft (stream : List Byte) : HostCall (List Byte) := do
  let rate := (← readPort 0x013).toNat
  let sets := stream.length / rate
  convRefuseWide sets
  issue (li32 1 (BitVec.ofNat 32 sets) ++ [.vtReset 1])
  failOnFault .invalidArgument
  for i in List.range sets do
    issue (vtSoft ((stream.drop (i * rate)).take rate))
  convResult sets

end Sys2Proof.Machine
end

