-- ==== Sys2Proof/Tests/Slice0.lean ====
section
/-! SUPPORT. The model's own tests. Words are written out from the formats of `30_encoding.md` (R71,
R72) and the opcodes of R75; expected values are the spec's own vectors (`95_test_vectors.md`, the
examples of the rules). After them, for each statement with hypotheses, a state that meets them. -/

namespace Sys2Proof.Tests

set_option Elab.async false

open Sys2Proof Sys2Proof.Machine Sys2Proof.Claims

/-! ## Small states -/

/-- The state with the first scalar registers at these values, the others 0. -/
def scalars (vals : List Nat) (s : State) : State :=
  { s with x := Mem.ofFn 16 fun k => BitVec.ofNat 32 (vals.getD k 0) }

/-- The state with a polynomial register of this order and these lowest coefficients. -/
def poly (i : PReg) (ord : Nat) (c : List Nat) (s : State) : State :=
  s.setP i { ord := BitVec.ofNat 8 ord, c := Mem.ofFn 256 fun k => BitVec.ofNat 8 (c.getD k 0) }

/-- After `GF.BUILD` of 0x11D. -/
def built : State :=
  { State.reset with tab := buildTables 0x11D, prim := 0x11D, fvalid := true }

/-- Configured for the K = 3 code of R190, its output table as R190 lists it. -/
def coded : State :=
  { State.reset with
    vstate := .configured, rate := 2, order := 3, outtab := [0, 3, 1, 2, 3, 0, 2, 1]
    poly := Mem.ofFn 8 fun j => if j = 0 then 7 else if j = 1 then 5 else 0 }

/-- The K = 3 decoder with a bank of path metrics to read and its counters. -/
def decoder (pm : List Nat) (slice sets hidx hlen rcnt : Nat) : State :=
  { coded with
    vstate := .ready, tbmin := 15, tbburst := 45, cap := 60, rint := 128
    pm0 := (pm ++ [0, 0, 0, 0]).map (BitVec.ofNat 16), pm1 := List.replicate 8 0
    dist := List.replicate 4 0, hist := List.replicate 60 (List.replicate 4 false)
    hidx := BitVec.ofNat 16 hidx, hlen := BitVec.ofNat 16 hlen, rcnt := BitVec.ofNat 16 rcnt
    slice := BitVec.ofNat 32 slice, sets := BitVec.ofNat 32 sets
    outq := List.replicate (slice - 2 - hlen) false }

/-- The state after a command. -/
def after (i : Instr) (s : State) : State :=
  match exec i s with
  | .next t => t
  | .fault _ => s
  | .refused _ => s

/-- The state after the host's next event. -/
def stepped (s : State) : State :=
  match step s with
  | .next t => t
  | .fault _ => s
  | .refused _ => s

/-- The state with these events of the host to come. -/
def facing (events : List HostEvent) (s : State) : State := { s with host := events }

/-- The result of a three-register command on two operands, tables of 0x11D. -/
def fieldResult (i : Instr) (a b : Nat) : Nat := xv (after i (scalars [0, a, b] built)) 3

/-- The cause that the command latches. -/
def cause (i : Instr) (s : State) : Nat := (after i s).cause.toNat

/-- The lowest coefficients of a polynomial register. -/
def coefs (i : PReg) (n : Nat) (s : State) : List Nat :=
  (List.range n).map fun k => ((s.getP i).coef k).toNat

/-- The lower entries of the bank that `VT.PM` reads. -/
def metrics (s : State) : List Nat := (List.range 4).map (readPM s)

/-- The slot of the history ring. -/
def slot (k : Nat) (s : State) : List Bool := (List.range 4).map (s.histBit k)

/-! ## Well-formedness: each check refuses an ill-formed term -/

theorem test_wf_setord_refused : (Instr.pSetord 2 65536).wellFormed = false := by decide
theorem test_wf_sym_refused : (Instr.bmSym 16 1).wellFormed = false := by decide
theorem test_wf_symi_index_refused : (Instr.bmSymi 16 1).wellFormed = false := by decide
theorem test_wf_symi_value_refused : (Instr.bmSymi 1 65536).wellFormed = false := by decide
theorem test_wf_mode_refused : (Instr.vtMode 65536).wellFormed = false := by decide
theorem test_wf_poly_refused : (Instr.vtPoly 16 3).wellFormed = false := by decide

/-! ## Decoding: one word for each row of R75 -/

theorem test_decode_nop : decode 0x00000000#32 = some .nop := by decide
theorem test_decode_li : decode 0x01A0BEEF#32 = some (.li 10 0xBEEF) := by decide
theorem test_decode_lih : decode 0x02C01234#32 = some (.lih 12 0x1234) := by decide
theorem test_decode_mov : decode 0x03430000#32 = some (.mov 4 3) := by decide
theorem test_decode_clrf : decode 0x04000000#32 = some .clrf := by decide
theorem test_decode_gfBuild : decode 0x10070000#32 = some (.gfBuild 7) := by decide
theorem test_decode_gfAdd : decode 0x11423000#32 = some (.gfAdd 4 2 3) := by decide
theorem test_decode_gfSub : decode 0x12567000#32 = some (.gfSub 5 6 7) := by decide
theorem test_decode_gfMul : decode 0x13423000#32 = some (.gfMul 4 2 3) := by decide
theorem test_decode_gfDiv : decode 0x14543000#32 = some (.gfDiv 5 4 3) := by decide
theorem test_decode_gfSum : decode 0x15F2E000#32 = some (.gfSum 15 2 14) := by decide
theorem test_decode_gfPow : decode 0x16C2B000#32 = some (.gfPow 12 2 11) := by decide
theorem test_decode_gfLog : decode 0x17720000#32 = some (.gfLog 7 2) := by decide
theorem test_decode_gfExp : decode 0x18A90000#32 = some (.gfExp 10 9) := by decide
theorem test_decode_gfMullog : decode 0x19978000#32 = some (.gfMullog 9 7 8) := by decide
theorem test_decode_gfDivlog : decode 0x1A123000#32 = some (.gfDivlog 1 2 3) := by decide
theorem test_decode_pSetord : decode 0x203000FE#32 = some (.pSetord 3 0xFE) := by decide
theorem test_decode_pGetord : decode 0x21430000#32 = some (.pGetord 4 3) := by decide
theorem test_decode_pLdc : decode 0x22312000#32 = some (.pLdc 3 1 2) := by decide
theorem test_decode_pStc : decode 0x23431000#32 = some (.pStc 4 3 1) := by decide
theorem test_decode_pClr : decode 0x24500000#32 = some (.pClr 5) := by decide
theorem test_decode_pMov : decode 0x25530000#32 = some (.pMov 5 3) := by decide
theorem test_decode_pMul : decode 0x26423000#32 = some (.pMul 4 2 3) := by decide
theorem test_decode_pMod : decode 0x27210000#32 = some (.pMod 2 1 0) := by decide
theorem test_decode_pDer : decode 0x28210000#32 = some (.pDer 2 1) := by decide
theorem test_decode_pEval : decode 0x29516000#32 = some (.pEval 5 1 6) := by decide
theorem test_decode_pPows : decode 0x2A860000#32 = some (.pPows 8 6) := by decide
theorem test_decode_pEvalp : decode 0x2B518000#32 = some (.pEvalp 5 1 8) := by decide
theorem test_decode_pTolog : decode 0x2C910000#32 = some (.pTolog 9 1) := by decide
theorem test_decode_pEvall : decode 0x2D598000#32 = some (.pEvall 5 9 8) := by decide
theorem test_decode_pRoots : decode 0x2E010000#32 = some (.pRoots 0 1) := by decide
theorem test_decode_pLdci : decode 0x2F100361#32 = some (.pLdci 1 3 0x61) := by decide
theorem test_decode_bmHard : decode 0x30312000#32 = some (.bmHard 3 1 2) := by decide
theorem test_decode_bmSoftl : decode 0x31310000#32 = some (.bmSoftl 3 1) := by decide
theorem test_decode_bmSoftq : decode 0x32310000#32 = some (.bmSoftq 3 1) := by decide
theorem test_decode_bmSym : decode 0x33520000#32 = some (.bmSym 5 2) := by decide
theorem test_decode_bmSymi : decode 0x34100080#32 = some (.bmSymi 1 128) := by decide
theorem test_decode_vtCfg : decode 0x40012000#32 = some (.vtCfg 1 2) := by decide
theorem test_decode_vtInit : decode 0x41000000#32 = some .vtInit := by decide
theorem test_decode_vtReset : decode 0x42030000#32 = some (.vtReset 3) := by decide
theorem test_decode_vtSteph : decode 0x43060000#32 = some (.vtSteph 6) := by decide
theorem test_decode_vtSteps : decode 0x44000000#32 = some .vtSteps := by decide
theorem test_decode_vtFlush : decode 0x45000000#32 = some .vtFlush := by decide
theorem test_decode_vtMode : decode 0x46000001#32 = some (.vtMode 1) := by decide
theorem test_decode_encRst : decode 0x47000000#32 = some .encRst := by decide
theorem test_decode_encBit : decode 0x48210000#32 = some (.encBit 2 1) := by decide
theorem test_decode_vtQlen : decode 0x49700000#32 = some (.vtQlen 7) := by decide
theorem test_decode_vtRdq : decode 0x4A980000#32 = some (.vtRdq 9 8) := by decide
theorem test_decode_vtTab : decode 0x4B210000#32 = some (.vtTab 2 1) := by decide
theorem test_decode_vtPm : decode 0x4CB40000#32 = some (.vtPm 11 4) := by decide
theorem test_decode_vtPoly : decode 0x4DC30000#32 = some (.vtPoly 12 3) := by decide

/-- The illegal words of `95_test_vectors.md` §2.1. -/
theorem test_decode_refuses_illegal_words :
    decode 0x05000000#32 = none ∧ decode 0xFF000000#32 = none ∧ decode 0x00000001#32 = none ∧
    decode 0x00100000#32 = none ∧ decode 0x13423001#32 = none ∧ decode 0x10110000#32 = none ∧
    decode 0x01010005#32 = none ∧ decode 0x46100001#32 = none ∧ decode 0x04000001#32 = none ∧
    decode 0x2410F000#32 = none := by decide

/-! ## The step, the latch, reset (§2.1 of the vectors) -/

theorem test_step_runs_command :
    xv (stepped (facing [.command 0x01308000#32] State.reset)) 3 = 0xFFFF8000 := by decide +kernel
theorem test_fetch_word_is_run :
    (stepped ((scalars [0, 0, 5] State.reset).withFetchWord 32 0x03120000)).hostRead 1 = 5 := by
  decide +kernel
theorem test_illegal_word_latches :
    (stepped (facing [.command 0x05000000#32] State.reset)).hostRead 0x010 = 0x101 ∧
    (stepped (facing [.command 0x05000000#32] State.reset)).hostRead 0x011 = 0x05000000 := by
  decide +kernel
theorem test_latched_block_ignores_li :
    xv (stepped (facing [.command 0x01100005#32] { State.reset with fault := true, cause := 1 })) 1 = 0
    := by decide +kernel
theorem test_latched_block_runs_clrf :
    (stepped (facing [.command 0x04000000#32]
      { State.reset with fault := true, cause := 1, einfo := 7 })).hostRead 0x010 = 0 := by decide +kernel
theorem test_reset_event_unconfigures :
    (stepped (facing [.reset] (decoder [] 2 12 0 0 0))).vstate = .unconf := by decide +kernel

/-! ## Moves -/

theorem test_nop : after .nop (scalars [1, 2] State.reset) = scalars [1, 2] State.reset := by decide +kernel
theorem test_li_sign_extends : xv (after (.li 3 0xFFFF) State.reset) 3 = 0xFFFFFFFF := by decide +kernel
theorem test_lih_keeps_lower_half :
    xv (after (.lih 3 0x1234) (scalars [0, 0, 0, 0xFFFF8001] State.reset)) 3 = 0x12348001 := by
  decide +kernel
/-- R79's `LI32` and `P.LOAD`. -/
theorem test_pseudo_commands :
    li32 3 0x12348001 = [.li 3 0x8001, .lih 3 0x1234] ∧
    pLoad 1 [2, 4] = [.pSetord 1 1, .pLdci 1 0 2, .pLdci 1 1 4] := by decide
theorem test_mov : xv (after (.mov 4 3) (scalars [0, 0, 0, 9, 1] State.reset)) 4 = 9 := by decide +kernel
theorem test_clrf_unlatched : after .clrf built = built := by decide +kernel

/-! ## The field unit (§2.2 of the vectors, PRIM 0x11D) -/

theorem test_gf_build_refusals :
    cause (.gfBuild 1) (scalars [0, 0x11B] State.reset) = 3 ∧
    cause (.gfBuild 1) (scalars [0, 0x11D] built) = 8 := by decide +kernel
theorem test_gf_build_tables :
    (after (.gfBuild 1) (scalars [0, 0x187] State.reset)).hostRead 0x300B = 0xAD ∧
    (after (.gfBuild 1) (scalars [0, 0x187] State.reset)).hostRead 0x3203 = 99 := by decide +kernel
theorem test_gf_add_sub_sum :
    fieldResult (.gfAdd 3 1 2) 0x53 0xCA = 0x99 ∧ fieldResult (.gfSub 3 1 2) 0x53 0xCA = 0x99 ∧
    fieldResult (.gfSum 3 1 2) 0x53 0xFFFFFFFF = 0x53 ∧
    fieldResult (.gfSum 3 1 2) 0x53 0x80000000 = 0 := by decide +kernel
theorem test_gf_mul_div :
    fieldResult (.gfMul 3 1 2) 0x53 0xCA = 0x8F ∧ fieldResult (.gfMul 3 1 2) 0xFF 0xFF = 0xE2 ∧
    fieldResult (.gfDiv 3 1 2) 0x8F 0xCA = 0x53 ∧ fieldResult (.gfDiv 3 1 2) 1 0xFF = 0xFD := by
  decide +kernel
theorem test_gf_div_by_zero : cause (.gfDiv 3 1 2) (scalars [0, 0, 0] built) = 2 := by decide +kernel
theorem test_gf_pow :
    fieldResult (.gfPow 3 1 2) 0x53 0xFFFFFFFD = 0x29 ∧ fieldResult (.gfPow 3 1 2) 0 7 = 1 ∧
    fieldResult (.gfPow 3 1 2) 2 0x80000000 = 0xCC := by decide +kernel
theorem test_gf_log_exp :
    fieldResult (.gfLog 3 1) 1 0 = 0xFF ∧ fieldResult (.gfLog 3 1) 0x53 0 = 0xCE ∧
    fieldResult (.gfExp 3 1) 0x1FF 0 = 2 ∧ fieldResult (.gfExp 3 1) 0xFE 0 = 0x8E := by decide +kernel
theorem test_gf_mullog_divlog :
    fieldResult (.gfMullog 3 1 2) 0xC8 0x64 = 0x2D ∧ fieldResult (.gfMullog 3 1 2) 0x80 0x7F = 0xFF ∧
    fieldResult (.gfDivlog 3 1 2) 0x64 0xC8 = 0x9B ∧ fieldResult (.gfDivlog 3 1 2) 0xFF 0xFF = 0xFF := by
  decide +kernel

/-! ## The polynomial unit (§2.3 of the vectors) -/

theorem test_p_setord : (after (.pSetord 3 0x77) State.reset).hostRead 0x103 = 0x77 := by decide +kernel
theorem test_p_setord_range : cause (.pSetord 3 256) State.reset = 7 := by decide +kernel
theorem test_p_getord : xv (after (.pGetord 4 3) (poly 3 0x77 [] State.reset)) 4 = 0x77 := by
  decide +kernel
theorem test_p_ldc :
    ((after (.pLdc 3 1 2) (scalars [0, 0xFF, 0xAB] State.reset)).getP 3).coef 255 = 0xAB := by
  decide +kernel
theorem test_p_ldc_range : cause (.pLdc 3 1 2) (scalars [0, 0x100, 0xAB] State.reset) = 7 := by
  decide +kernel
theorem test_p_stc :
    xv (after (.pStc 4 3 1) (scalars [0, 2] (poly 3 0 [1, 2, 0xAB] State.reset))) 4 = 0xAB := by
  decide +kernel
theorem test_p_clr : coefs 5 3 (after (.pClr 5) (poly 5 0x77 [1, 2, 3] State.reset)) = [0, 0, 0] ∧
    ((after (.pClr 5) (poly 5 0x77 [1, 2, 3] State.reset)).getP 5).deg = 0x77 := by decide +kernel
theorem test_p_mov :
    (after (.pMov 5 3) (poly 3 1 [1, 2, 3] State.reset)).getP 5
      = (poly 3 1 [1, 2, 3] State.reset).getP 3 := by decide +kernel
theorem test_p_ldci : coefs 1 4 (after (.pLdci 1 3 0x61) State.reset) = [0, 0, 0, 0x61] := by
  decide +kernel
theorem test_p_mul :
    coefs 4 3 (after (.pMul 4 2 3) (poly 4 1 [9, 9, 0xEE] (poly 2 1 [1, 1] (poly 3 1 [2, 1] built))))
      = [2, 3, 0xEE] := by decide +kernel
theorem test_p_mul_alias : cause (.pMul 2 2 3) built = 9 := by decide +kernel
theorem test_p_mod :
    coefs 2 5 (after (.pMod 2 1 0)
      (poly 1 4 [0x12, 0x34, 0x56, 0x78, 0x9A] (poly 0 2 [3, 0, 1] (poly 2 4 [] built))))
      = [0x20, 0xBC, 0, 0, 0] := by decide +kernel
theorem test_p_mod_capacity_before_divisor :
    cause (.pMod 2 1 0) (poly 1 4 [] (poly 0 2 [3, 0, 0] (poly 2 3 [] built))) = 6 := by decide +kernel
theorem test_p_der :
    coefs 2 5 (after (.pDer 2 1) (poly 1 5 [5, 6, 7, 8, 9, 10] State.reset)) = [6, 0, 8, 0, 10] := by
  decide +kernel
theorem test_p_eval :
    xv (after (.pEval 5 1 6) (scalars [0, 0, 0, 0, 0, 0, 0x53]
      (poly 1 4 [0x12, 0x34, 0x56, 0x78, 0x9A] built))) 5 = 0x17 := by decide +kernel
theorem test_p_pows :
    coefs 8 5 (after (.pPows 8 6) (scalars [0, 0, 0, 0, 0, 0, 0x53] (poly 8 4 [] built)))
      = [255, 206, 157, 108, 59] := by decide +kernel
theorem test_p_evalp :
    xv (after (.pEvalp 5 1 8) (poly 1 4 [0x12, 0x34, 0x56, 0x78, 0x9A]
      (poly 8 4 [255, 206, 157, 108, 59] built))) 5 = 0x17 := by decide +kernel
theorem test_p_tolog :
    coefs 9 5 (after (.pTolog 9 1) (poly 1 4 [0x12, 0x34, 0x56, 0x78, 0x9A] built))
      = [224, 106, 219, 78, 146] := by decide +kernel
theorem test_p_evall :
    xv (after (.pEvall 5 9 8) (poly 9 4 [224, 106, 219, 78, 146]
      (poly 8 4 [255, 1, 2, 3, 4] built))) 5 = 0x8D := by decide +kernel
theorem test_p_roots :
    coefs 0 5 (after (.pRoots 0 1) (poly 1 3 [2, 4, 8, 16] built)) = [0x74, 0xE7, 0xD8, 0x1E, 1] ∧
    (after (.pRoots 0 1) (poly 1 3 [2, 4, 8, 16] built)).rsel = true := by decide +kernel
theorem test_p_roots_capacity : cause (.pRoots 0 1) (poly 1 255 [] built) = 6 := by decide +kernel

/-! ## The branch-metric unit (§2.4 of the vectors) -/

/-- The soft symbols of the second row. -/
def softened : State :=
  { coded with sym := Mem.ofFn 8 fun j => if j = 0 then 128 else if j = 1 then 10 else 0 }

theorem test_bm_hard :
    xv (after (.bmHard 3 1 2) (scalars [0, 0xFFFFFFFF, 0] State.reset)) 3 = 32 := by decide +kernel
theorem test_bm_softl : xv (after (.bmSoftl 3 1) (scalars [0, 2] softened)) 3 = 373 := by decide +kernel
theorem test_bm_softq : xv (after (.bmSoftq 3 1) (scalars [0, 2] softened)) 3 = 9551 := by decide +kernel
theorem test_bm_softl_range : cause (.bmSoftl 3 1) (scalars [0, 4] softened) = 7 := by decide +kernel
theorem test_bm_sym : (after (.bmSym 7 1) (scalars [0, 200] State.reset)).hostRead 0x02F = 200 := by
  decide +kernel
theorem test_bm_sym_range : cause (.bmSym 0 1) (scalars [0, 0x100] State.reset) = 7 := by decide +kernel
theorem test_bm_symi : (after (.bmSymi 2 5) State.reset).hostRead 0x02A = 5 := by decide +kernel
theorem test_bm_symi_range : cause (.bmSymi 8 5) State.reset = 7 := by decide +kernel

/-! ## The trellis unit and the encoder (§2.5 and §2.6 of the vectors) -/

theorem test_vt_poly :
    (after (.vtPoly 0 1) (scalars [0, 0x10000] State.reset)).hostRead 0x020 = 0x10000 := by decide +kernel
theorem test_vt_poly_range : cause (.vtPoly 8 1) State.reset = 7 := by decide +kernel
theorem test_vt_cfg :
    (after (.vtCfg 1 2) (scalars [0, 2, 3] coded)).outtab = [0, 3, 1, 2, 3, 0, 2, 1] := by decide +kernel
theorem test_vt_cfg_rate_first : cause (.vtCfg 1 2) (scalars [0, 9, 17] State.reset) = 4 := by
  decide +kernel
theorem test_vt_mode : (after (.vtMode 1) State.reset).hostRead 0x010 = 0x20 := by decide +kernel
theorem test_vt_mode_range : cause (.vtMode 2) State.reset = 7 := by decide +kernel
theorem test_vt_init :
    ((List.range 4).map fun k => (after .vtInit coded).hostRead (0x015 + k)) = [0xF, 0x2D, 0x3C, 0x80] := by
  decide +kernel
theorem test_vt_init_unconf : cause .vtInit State.reset = 8 := by decide +kernel
theorem test_vt_reset : (after (.vtReset 1) (scalars [0, 4] (decoder [] 5 12 3 3 3))).sets = 4 := by
  decide +kernel
theorem test_vt_reset_length : cause (.vtReset 1) (scalars [0, 3] (decoder [] 0 12 0 0 0)) = 10 := by
  decide +kernel
/-- Slice 1 of the decoder trace. -/
theorem test_vt_steph_warm_up :
    metrics (after (.vtSteph 1) (scalars [0, 3] (decoder [0, 0, 0, 0] 0 12 0 0 0))) = [2, 0, 0, 0] := by
  decide +kernel
/-- Slice 3 of the decoder trace. -/
theorem test_vt_steph_inner :
    metrics (after (.vtSteph 1) (scalars [0, 0] (decoder [3, 3, 0, 2] 2 12 0 0 0))) = [2, 0, 3, 3] ∧
    slot 0 (after (.vtSteph 1) (scalars [0, 0] (decoder [3, 3, 0, 2] 2 12 0 0 0)))
      = [true, true, true, true] := by decide +kernel
/-- `SYM` all 0 against the linear distances 0, 255, 255, 510 (§2.4, third row), in slice 1. -/
theorem test_vt_steps :
    metrics (after .vtSteps (decoder [0, 0, 0, 0] 0 12 0 0 0)) = [0, 510, 0, 0] ∧
    (after .vtSteps (decoder [0, 0, 0, 0] 0 12 0 0 0)).dist = [0, 255, 255, 510] := by decide +kernel
theorem test_vt_steps_no_slice_left : cause .vtSteps (decoder [] 12 12 10 10 10) = 8 := by decide +kernel
theorem test_vt_flush_length :
    (after .vtFlush (decoder [] 12 12 10 10 10)).outq.length = 10 := by decide +kernel
theorem test_vt_flush_early : cause .vtFlush (decoder [] 11 12 9 9 9) = 8 := by decide +kernel
theorem test_vt_qlen : xv (after (.vtQlen 7) (decoder [] 12 12 10 0 10)) 7 = 10 := by decide +kernel
theorem test_vt_rdq :
    xv (after (.vtRdq 9 1) (scalars [0, 1] { decoder [] 4 12 0 0 0 with outq := [false, true] })) 9 = 1 := by
  decide +kernel
theorem test_vt_rdq_range : cause (.vtRdq 9 1) (scalars [0, 10] (decoder [] 12 12 10 0 10)) = 7 := by
  decide +kernel
theorem test_vt_tab : xv (after (.vtTab 2 1) (scalars [0, 6] coded)) 2 = 2 := by decide +kernel
theorem test_vt_tab_range : cause (.vtTab 2 1) (scalars [0, 8] coded) = 7 := by decide +kernel
theorem test_vt_pm : xv (after (.vtPm 2 1) (scalars [0, 3] (decoder [0, 2, 3, 3] 12 12 10 0 10))) 2 = 3 := by
  decide +kernel
theorem test_enc_rst : (after .encRst { coded with esr := 5 }).esr = 0 := by decide +kernel
/-- The third bit of R206: `ESR` 2 to 5, symbol 0; and the fifth: 2 to 4, symbol 3. -/
theorem test_enc_bit :
    (after (.encBit 2 1) (scalars [0, 1] { coded with esr := 2 })).esr = 5 ∧
    xv (after (.encBit 2 1) (scalars [0, 0] { coded with esr := 2 })) 2 = 3 := by decide +kernel
theorem test_enc_bit_range : cause (.encBit 2 1) (scalars [0, 2] coded) = 7 := by decide +kernel

/-- R220: `gap` coprime to 255 and `minDistance` in 1..254. -/
theorem test_rs_parameters :
    rsParametersOk ⟨0x187, 32, 112, 11⟩ = true ∧ rsParametersOk ⟨0x11D, 254, 1, 1⟩ = true ∧
    rsParametersOk ⟨0x11D, 4, 1, 3⟩ = false ∧ rsParametersOk ⟨0x11D, 255, 1, 1⟩ = false ∧
    rsParametersOk ⟨0x11D, 0, 1, 1⟩ = false := by decide +kernel

/-- R252's bytes for `sets = 8m + ORDER + 1`, one slice fewer, and the two slices of log entry 28. -/
theorem test_conv_kept_bytes :
    convKeptBytes 20 3 = 2 ∧ convKeptBytes 19 3 = 1 ∧ convKeptBytes 2 2 = 0 := by decide
/-! ## Witnesses: states and operands that meet the hypotheses of the statements

One theorem for each statement with hypotheses, named after it; where a statement has several clauses,
one part for each, at a boundary of its range. -/

/-! ### Facts about the small states -/

/-- 0x11D is accepted and its tables are those of the state. -/
theorem built_fieldOk : built.FieldOk :=
  ⟨fun _ => (by decide +kernel : ¬ primRefused 0x11D), fun _ => rfl⟩

/-- Loading scalar registers changes nothing of the field unit. -/
theorem scalars_fieldOk (vals : List Nat) {s : State} (h : s.FieldOk) : (scalars vals s).FieldOk :=
  ⟨h.accepted, h.tables⟩

/-- Loading a polynomial register changes nothing of the field unit. -/
theorem poly_fieldOk (i : PReg) (n : Nat) (c : List Nat) {s : State} (h : s.FieldOk) :
    (poly i n c s).FieldOk :=
  ⟨h.accepted, h.tables⟩

/-- No one of the next `n` multiples by alpha is 1. -/
def noneIsOne (p : Nat) : (n e : Nat) → Bool
  | 0, _ => true
  | n + 1, e => timesAlpha p e != 1 && noneIsOne p n (timesAlpha p e)

theorem scaled_succ' (p a k : Nat) : scaled p a (k + 1) = scaled p (timesAlpha p a) k := by
  induction k with
  | zero => rfl
  | succ k ih => rw [scaled, ih]; rfl

theorem scaled_add (p a m k : Nat) : scaled p a (m + k) = scaled p (scaled p a m) k := by
  induction k with
  | zero => rfl
  | succ k ih => rw [Nat.add_succ, scaled, ih]; rfl

theorem noneIsOne_scaled {p n e : Nat} (h : noneIsOne p n e = true) :
    ∀ i, 1 ≤ i → i ≤ n → scaled p e i ≠ 1 := by
  induction n generalizing e with
  | zero => omega
  | succ n ih =>
    simp only [noneIsOne, Bool.and_eq_true, bne_iff_ne] at h
    intro i h1 hi
    obtain ⟨k, rfl⟩ : ∃ k, i = k + 1 := ⟨i - 1, by omega⟩
    rw [scaled_succ']
    by_cases hk : k = 0
    · subst hk; exact h.1
    · exact ih h.2 k (by omega) (by omega)

/-- 0x11D is primitive: two equal powers would give an earlier power equal to 1. -/
theorem primitive_0x11D : Primitive 0x11D := by
  have h1 := noneIsOne_scaled (by decide +kernel : noneIsOne 0x11D 254 1 = true)
  have h255 : scaled 0x11D 1 255 = 1 := by decide +kernel
  refine ⟨by decide, by decide, fun i j hi hij hj e => ?_, h1, h255⟩
  refine h1 (i + (255 - j)) (by omega) (by omega) ?_
  rw [scaled_add, e, ← scaled_add, show j + (255 - j) = 255 by omega, h255]

/-- A list of zeros reads 0 everywhere. -/
theorem replicate_getD (n k : Nat) : (List.replicate n (0 : Metric)).getD k 0 = 0 := by
  by_cases h : k < n <;> simp [List.getD, h]

theorem decoder_codeOk (slice sets hidx hlen rcnt : Nat) :
    (decoder [0, 0, 0, 0] slice sets hidx hlen rcnt).CodeOk where
  unconf := by intro h; cases h
  rate := fun _ => (by decide : 2 ≤ 2 ∧ 2 ≤ 8)
  order := fun _ => (by decide : 2 ≤ 3 ∧ 3 ≤ 16)
  extent := by intro _; rfl
  symbols := (by decide : ∀ o ∈ ([0, 3, 1, 2, 3, 0, 2, 1] : List Byte), o.toNat < 4)
  register := (by decide : 0 < 2 ^ 3)

/-- The decoder between two slices of a decode. -/
theorem decoder_decoderOk (slice sets hidx hlen rcnt : Nat) (h1 : hidx < 60) (h2 : hlen < 60)
    (h3 : rcnt < 128) (h4 : slice ≤ sets) (h5 : 4 ≤ sets) (h6 : sets < 2 ^ 32) (h7 : hlen ≤ slice - 2) :
    (decoder [0, 0, 0, 0] slice sets hidx hlen rcnt).DecoderOk where
  tbmin := rfl
  tbburst := rfl
  cap := rfl
  rint := (by decide : (128 : BitVec 16).toNat = 65535 / ((2 : BitVec 4).toNat * 255))
  bank0 := rfl
  bank1 := rfl
  upper0 := fun k _ => replicate_getD 8 k
  upper1 := fun k _ => replicate_getD 8 k
  dist := rfl
  ring := List.length_replicate
  slots := fun l h => by rw [List.eq_of_mem_replicate h]; rfl
  hidx := by simp [decoder]; omega
  hlen := by simp [decoder]; omega
  rcnt := by simp [decoder]; omega
  slice := by simp [decoder]; omega
  sets := by right; simp [decoder, coded]; omega
  emitted := by simp [decoder, coded]; omega

/-- The decoder satisfies the invariant of the block. -/
theorem decoder_inv (slice sets hidx hlen rcnt : Nat) (h1 : hidx < 60) (h2 : hlen < 60)
    (h3 : rcnt < 128) (h4 : slice ≤ sets) (h5 : 4 ≤ sets) (h6 : sets < 2 ^ 32) (h7 : hlen ≤ slice - 2) :
    (decoder [0, 0, 0, 0] slice sets hidx hlen rcnt).Inv where
  latch := ⟨fun _ => ⟨rfl, rfl⟩, fun h => by cases h⟩
  field := ⟨fun h => (by cases h), fun h => (by cases h)⟩
  code := decoder_codeOk ..
  decoder := fun _ => decoder_decoderOk slice sets hidx hlen rcnt h1 h2 h3 h4 h5 h6 h7

/-- The events to come are no part of the invariant. -/
theorem facing_inv (events : List HostEvent) {s : State} (h : s.Inv) : (facing events s).Inv where
  latch := ⟨h.latch.clear, h.latch.held⟩
  field := ⟨h.field.accepted, h.field.tables⟩
  code := ⟨h.code.unconf, h.code.rate, h.code.order, h.code.extent, h.code.symbols, h.code.register⟩
  decoder := fun r =>
    let d := h.decoder r
    ⟨d.tbmin, d.tbburst, d.cap, d.rint, d.bank0, d.bank1, d.upper0, d.upper1, d.dist, d.ring, d.slots,
      d.hidx, d.hlen, d.rcnt, d.slice, d.sets, d.emitted⟩

/-! ### Encoding -/

theorem witness_DecodeUndoesEncode :
    (Instr.bmSymi 15 65535).wellFormed = true ∧ (Instr.vtPoly 15 15).wellFormed = true ∧
    (Instr.pSetord 15 65535).wellFormed = true ∧ (Instr.vtMode 65535).wellFormed = true ∧
    (Instr.bmSym 0 15).wellFormed = true ∧ Instr.nop.wellFormed = true := by decide

theorem witness_EncodeUndoesDecode : decode 0x34F0FFFF#32 = some (.bmSymi 15 65535) := by decide

theorem witness_EveryWordMatchesOneRowOrIsIllegal :
    (∀ op ∈ [0x05, 0x0F, 0x1B, 0x1F, 0x35, 0x3F, 0x4E, 0xFF],
      op ∈ List.range' 0x05 11 ++ List.range' 0x1B 5 ++ List.range' 0x35 11 ++ List.range' 0x4E 178) ∧
    decode 0x13423000#32 = some (.gfMul 4 2 3) ∧
    (facing [.command 0x00000001#32] State.reset).host = .command 0x00000001#32 :: [] ∧
    State.reset.fault = false ∧ decode 0x00000001#32 = none := by decide

/-! ### The step, the latch and reset -/

/-- A block with a fault latched. -/
def latched : State := { State.reset with fault := true, cause := 8, einfo := 0x13423000 }

theorem witness_StepRunsTheDecodedCommand :
    (facing [.command 0x13423000#32] built).host = .command 0x13423000#32 :: [] ∧
    (facing [.command 0x13423000#32] built).fault = false ∧
    decode 0x13423000#32 = some (.gfMul 4 2 3) := by decide

theorem witness_LatchedBlockIgnoresEveryWordButClrf :
    (facing [.command 0x04000001#32] latched).host = .command 0x04000001#32 :: [] ∧
    (facing [.command 0x04000000#32] latched).host = .command 0x04000000#32 :: [] ∧
    (facing [.command 0x04000001#32] latched).fault = true ∧ 0x04000001#32 ≠ 0x04000000#32 := by decide

theorem witness_ClrfClearsTheLatchAndNothingElse : latched.fault = true ∧ built.fault = false := ⟨rfl, rfl⟩

theorem witness_ResetLeavesTheTableOfResetValues :
    (facing [.reset, .command 0] (decoder [] 5 12 3 3 3)).host = .reset :: [.command 0] := rfl

theorem witness_EveryStepAnswersANextState : State.reset.host = [] := rfl

theorem witness_AFaultWritesOnlyTheLatch :
    (facing [.command 0x13423000#32] State.reset).host = .command 0x13423000#32 :: [] ∧
    (facing [.command 0x13423000#32] State.reset).fault = false ∧
    ∃ t, step (facing [.command 0x13423000#32] State.reset) = .next t ∧ t.fault = true :=
  ⟨rfl, rfl, stepped (facing [.command 0x13423000#32] State.reset), rfl, by decide +kernel⟩

theorem witness_FaultsAreThoseOfTheTableInPriorityOrder :
    sequenceWhen State.reset (.gfMul 3 1 2) = true ∧
    (sequenceWhen (scalars [0, 256] built) (.gfMul 3 1 2) = false ∧
      rangeWhen (scalars [0, 256] built) (.gfMul 3 1 2) = true ∧
      rangeWhen (scalars [0, 255, 255] built) (.gfMul 3 1 2) = false) ∧
    (rangeWhen built (.pMod 2 1 2) = false ∧ aliasWhen (.pMod 2 1 2) = true) ∧
    (sequenceWhen (poly 1 4 [] (poly 2 3 [] built)) (.pMod 2 1 0) = false ∧ aliasWhen (.pMod 2 1 0) = false ∧
      capacityWhen (poly 1 4 [] (poly 2 3 [] built)) (.pMod 2 1 0) = true ∧
      capacityWhen (poly 1 4 [] (poly 2 4 [] built)) (.pMod 2 1 0) = false) ∧
    ValueCause (scalars [0, 5, 0] built) (.gfDiv 3 1 2) .divideByZero ∧
    ((∀ c, ¬ ValueCause (scalars [0, 5, 1] built) (.gfDiv 3 1 2) c) ∧ Instr.gfDiv 3 1 2 ≠ .clrf) := by
  refine ⟨by decide, by decide +kernel, by decide, by decide +kernel, ⟨rfl, by decide⟩, ?_, by decide⟩
  rintro c ⟨_, h⟩
  revert h
  decide

theorem witness_HostReadPortShowsTheItemsOfItsTable :
    ((decoder [] 12 12 10 0 10).outq.length = 10) ∧
    (∀ n ∈ [0x030, 0xFF, 0x110, 0xFFF, 0x2000, 0x2FFF, 0x3300, 0x3FFF, 0x400A],
      0x030 ≤ n ∧ n < 0x100 ∨ 0x110 ≤ n ∧ n < 0x1000 ∨ 0x2000 ≤ n ∧ n < 0x3000 ∨
      0x3300 ≤ n ∧ n < 0x4000 ∨ 0x4000 + (decoder [] 12 12 10 0 10).outq.length ≤ n) := by decide

/-! ### Whole-machine rules -/

theorem witness_EveryStepKeepsTheInvariant :
    (facing [.command 0x44000000#32] (decoder [0, 0, 0, 0] 62 100 59 59 127)).Inv ∧
    ∃ t, step (facing [.command 0x44000000#32] (decoder [0, 0, 0, 0] 62 100 59 59 127)) = .next t ∧
      t.fault = false := by
  refine ⟨?_, stepped (facing [.command 0x44000000#32] (decoder [0, 0, 0, 0] 62 100 59 59 127)), rfl,
    by decide +kernel⟩
  exact facing_inv _ (decoder_inv 62 100 59 59 127 (by decide) (by decide) (by decide) (by decide)
    (by decide) (by decide) (by decide))

theorem witness_OnlyTheNamedScalarRegisterIsWritten :
    exec (.mov 4 3) State.reset = .next (after (.mov 4 3) State.reset) ∧ scalarDest (.mov 4 3) ≠ some 5 :=
  ⟨rfl, by decide⟩

theorem witness_OnlyTheNamedPolynomialRegisterIsWritten :
    exec (.pClr 4) State.reset = .next (after (.pClr 4) State.reset) ∧ polyDest (.pClr 4) ≠ some 5 ∧
    ∀ d a, Instr.pClr 4 ≠ .pRoots d a :=
  ⟨rfl, by decide, by intro d a h; cases h⟩

theorem witness_BuiltTablesNeverChangeUntilReset :
    built.fvalid = true ∧ (facing [.command 0x10010000#32] built).host.head? ≠ some .reset ∧
    step (facing [.command 0x10010000#32] built) =
      .next (stepped (facing [.command 0x10010000#32] built)) :=
  ⟨rfl, by decide, rfl⟩

theorem witness_OverflowFlagIsSticky :
    ({ State.reset with ovf := true } : State).ovf = true ∧ State.reset.ovf = false ∧
    exec .encRst State.reset = .next (after .encRst State.reset) ∧ Instr.encRst ≠ .vtInit ∧
    (∀ a, Instr.encRst ≠ .vtReset a) ∧ Instr.encRst ≠ .vtSteps ∧ ∀ a, Instr.encRst ≠ .vtSteph a :=
  ⟨rfl, rfl, rfl, by decide, (by intro a h; cases h), by decide, (by intro a h; cases h)⟩

/-- A rate and an order in range, each of them one out of range, and both blocks that `VT.INIT` meets. -/
theorem witness_OnlyCfgAndInitChangeTheLifecycle :
    nextLifecycle (scalars [0, 8, 2] State.reset) (.vtCfg 1 2) = .configured ∧
    nextLifecycle (scalars [0, 9, 2] State.reset) (.vtCfg 1 2) = .unconf ∧
    nextLifecycle (scalars [0, 8, 1] (decoder [] 5 12 3 3 3)) (.vtCfg 1 2) = .ready ∧
    nextLifecycle State.reset .vtInit = .unconf ∧ nextLifecycle coded .vtInit = .ready ∧
    nextLifecycle coded .vtFlush = .configured := by decide +kernel

theorem witness_FieldPolynomialAndEncoderCommandsLeaveTheDecoder :
    besideDecode (.encBit 2 1) = true ∧
    exec (.encBit 2 1) (scalars [0, 1] (decoder [] 5 12 3 3 3))
      = .next (after (.encBit 2 1) (scalars [0, 1] (decoder [] 5 12 3 3 3))) := ⟨rfl, rfl⟩

theorem witness_EveryScalarRegisterHoldsWhatIsWritten : (1 : XReg) ≠ 0 ∧ (14 : XReg) ≠ 15 := by decide

/-! ### The field unit -/

theorem witness_GfBuildBuildsTheTablesOfAPrimitivePolynomial :
    built.fvalid = true ∧
    (State.reset.fvalid = false ∧ ¬ Primitive (xv (scalars [0, 0xFF] State.reset) 1) ∧
      ¬ Primitive (xv (scalars [0, 0x200] State.reset) 1)) ∧
    Primitive (xv (scalars [0, 0x11D] State.reset) 1) :=
  ⟨rfl, ⟨rfl, fun h => absurd h.1 (by decide), fun h => absurd h.2.1 (by decide)⟩, primitive_0x11D⟩

theorem witness_BuiltTablesSatisfyTheFieldAxioms :
    (scalars [0, 255] built).fvalid = true ∧ xv (scalars [0, 255] built) 1 ≤ 255 ∧
    Primitive (0x11D : BitVec 9).toNat ∧ (255 : Byte) ≠ 0 := ⟨rfl, by decide, primitive_0x11D, by decide⟩

theorem witness_GfMulWritesTheReducedCarrylessProduct :
    (scalars [0, 255, 255] built).FieldOk ∧ (scalars [0, 255, 255] built).fvalid = true ∧
    xv (scalars [0, 255, 255] built) 1 ≤ 255 ∧ xv (scalars [0, 255, 255] built) 2 ≤ 255 :=
  ⟨scalars_fieldOk _ built_fieldOk, rfl, by decide, by decide⟩

/-- Operands at the upper bound 255, a zero divisor, and a divisor that is not 0. -/
theorem witness_GfAddSubAndSumWriteTheirResult :
    (scalars [0, 255, 255] built).fvalid = true ∧ xv (scalars [0, 255, 255] built) 1 ≤ 255 ∧
    xv (scalars [0, 255, 255] built) 2 ≤ 255 := ⟨rfl, by decide, by decide⟩

theorem witness_GfMulAndDivReadTheTables :
    (scalars [0, 255, 1] built).fvalid = true ∧ xv (scalars [0, 255, 1] built) 1 ≤ 255 ∧
    xv (scalars [0, 255, 1] built) 2 ≤ 255 ∧ xv (scalars [0, 255, 1] built) 2 ≠ 0 ∧
    xv (scalars [0, 255, 0] built) 2 = 0 := ⟨rfl, by decide, by decide, by decide, by decide⟩

theorem witness_GfPowLogAndExpReadTheTables :
    (scalars [0, 255, 511] built).fvalid = true ∧ xv (scalars [0, 255, 511] built) 1 ≤ 255 ∧
    xv (scalars [0, 255, 511] built) 2 ≤ 511 := ⟨rfl, by decide, by decide⟩

theorem witness_GfPowIsThePowerInTheField :
    Primitive (0x11D : BitVec 9).toNat ∧ (1 : Byte) ≠ 0 := ⟨primitive_0x11D, by decide⟩

theorem witness_GfMullogAndDivlogReduceOnce :
    (scalars [0, 0, 255] built).fvalid = true ∧ xv (scalars [0, 0, 255] built) 1 ≤ 255 ∧
    xv (scalars [0, 0, 255] built) 2 ≤ 255 := ⟨rfl, by decide, by decide⟩

/-! ### The polynomial unit -/

theorem witness_PolynomialMovesWriteWhatTheirRulesList :
    xv (scalars [0, 255, 255] State.reset) 1 ≤ 255 ∧ xv (scalars [0, 255, 255] State.reset) 2 ≤ 255 ∧
    (255 : Nat) ≤ 255 := by decide

theorem witness_PMulIsTheTruncatedProduct :
    built.fvalid = true ∧ (4 : PReg) ≠ 2 ∧ (4 : PReg) ≠ 3 := ⟨rfl, by decide, by decide⟩

/-- The dividend, the divisor and the remainder's register of the vectors; and a divisor of order 0. -/
theorem witness_PModLeavesTheRemainderOfTheDivision :
    let s := poly 1 4 [0x12, 0x34, 0x56, 0x78, 0x9A] (poly 0 2 [3, 0, 1] (poly 3 0 [5] (poly 2 4 [] built)))
    s.FieldOk ∧ s.fvalid = true ∧ (2 : PReg) ≠ 0 ∧ (2 : PReg) ≠ 3 ∧ (s.getP 1).deg ≤ (s.getP 2).deg ∧
    (s.getP 0).coef (s.getP 0).deg ≠ 0 ∧ (s.getP 3).coef (s.getP 3).deg ≠ 0 := by
  refine ⟨?_, rfl, by decide, by decide, by decide +kernel, by decide +kernel, by decide +kernel⟩
  exact poly_fieldOk _ _ _ (poly_fieldOk _ _ _ (poly_fieldOk _ _ _ (poly_fieldOk _ _ _ built_fieldOk)))

theorem witness_PDerIsTheFormalDerivative : (1 : PReg) = 1 ∧ (2 : PReg) ≠ 1 := by decide

theorem witness_PEvalIsTheValueOfThePolynomial :
    (scalars [0, 0, 255] (poly 1 255 [1] built)).FieldOk ∧
    (scalars [0, 0, 255] (poly 1 255 [1] built)).fvalid = true ∧
    xv (scalars [0, 0, 255] (poly 1 255 [1] built)) 2 ≤ 255 :=
  ⟨scalars_fieldOk _ (poly_fieldOk _ _ _ built_fieldOk), rfl, by decide⟩

theorem witness_PPowsBuildsThePowerTable :
    (scalars [0, 0, 255] built).fvalid = true ∧ xv (scalars [0, 0, 255] built) 1 = 0 ∧
    xv (scalars [0, 0, 255] built) 2 ≤ 255 ∧ xv (scalars [0, 0, 255] built) 2 ≠ 0 ∧
    (scalars [0, 0, 255] built).FieldOk :=
  ⟨rfl, by decide, by decide, by decide, scalars_fieldOk _ built_fieldOk⟩

theorem witness_PEvalpEvallAndTologFollowTheirFormulas :
    (poly 1 4 [1] (poly 8 4 [255] built)).fvalid = true ∧
    ((poly 1 4 [1] (poly 8 4 [255] built)).getP 1).deg
      ≤ ((poly 1 4 [1] (poly 8 4 [255] built)).getP 8).deg := ⟨rfl, by decide +kernel⟩

theorem witness_TheThreeEvaluatorsAgree :
    Primitive (0x11D : BitVec 9).toNat ∧
    (PolyReg.zero.withOrd 255).deg ≤ (PolyReg.zero.withOrd 255).deg := ⟨primitive_0x11D, le_refl _⟩

theorem witness_PRootsMultipliesTheLinearFactors :
    (poly 1 254 [2] built).FieldOk ∧ (poly 1 254 [2] built).fvalid = true ∧ (0 : PReg) ≠ 1 ∧
    ((poly 1 254 [2] built).getP 1).deg < 255 ∧ 2 ≤ ((poly 1 254 [2] built).getP 1).deg + 1 ∧
    ((poly 1 0 [2] built).getP 1).deg < 255 ∧ ((poly 1 0 [2] built).getP 1).deg + 1 = 1 :=
  ⟨poly_fieldOk _ _ _ built_fieldOk, rfl, by decide, by decide +kernel, by decide +kernel,
    by decide +kernel, by decide +kernel⟩

theorem witness_TheBuiltPolynomialVanishesAtItsRoots :
    let s := scalars [0, 0, 0, 0x10] (poly 1 3 [2, 4, 8, 0x10] built)
    s.FieldOk ∧ s.fvalid = true ∧ (0 : PReg) ≠ 1 ∧ (s.getP 1).deg < 255 ∧
    ∃ t, exec (.pRoots 0 1) s = .next t ∧ 3 ≤ (s.getP 1).deg ∧ t.getX 3 = ext8 ((s.getP 1).coef 3) := by
  refine ⟨scalars_fieldOk _ (poly_fieldOk _ _ _ built_fieldOk), rfl, by decide, by decide +kernel,
    after (.pRoots 0 1) (scalars [0, 0, 0, 0x10] (poly 1 3 [2, 4, 8, 0x10] built)), rfl,
    by decide +kernel, ?_⟩
  decide +kernel

/-! ### The branch-metric unit -/

theorem witness_BranchMetricsWriteTheDistances :
    coded.vstate ≠ .unconf ∧ coded.rate.toNat ≤ 8 ∧ xv (scalars [0, 3] coded) 1 < 2 ^ coded.rate.toNat := by
  decide

theorem witness_SymbolCommandsWriteOneSoftSymbol :
    (7 : Nat) ≤ 7 ∧ xv (scalars [0, 255, 256] State.reset) 1 ≤ 255 ∧
    255 < xv (scalars [0, 255, 256] State.reset) 2 ∧ (7 : Nat) < 8 ∧ (255 : Nat) < 256 := by decide

theorem witness_SoftDistancesOfHardSymbolsFollowTheHammingDistance :
    let s : State := { coded with sym := Mem.ofFn 8 fun j => if j = 1 then 255 else 0 }
    s.rate.toNat ≤ 8 ∧ 3 < 2 ^ s.rate.toNat ∧ 2 < 2 ^ s.rate.toNat ∧
    ∀ j < s.rate.toNat, s.sym.read j = if (2 : Nat).testBit j then 255 else 0 := by decide

/-! ### The trellis unit -/

theorem witness_PolyAndModeWriteTheirRegister :
    (7 : Nat) ≤ 7 ∧ (7 : Nat) < 8 ∧ (1 : Nat) < 2 := by decide

theorem witness_CfgBuildsTheOutputTable :
    (xv (scalars [0, 1, 9, 2, 8, 17, 16] State.reset) 1 < 2 ∧
      8 < xv (scalars [0, 1, 9, 2, 8, 17, 16] State.reset) 2) ∧
    (2 ≤ xv (scalars [0, 1, 9, 2, 8, 17, 16] State.reset) 3 ∧
      xv (scalars [0, 1, 9, 2, 8, 17, 16] State.reset) 4 ≤ 8 ∧
      xv (scalars [0, 1, 9, 2, 8, 17, 16] State.reset) 1 < 2 ∧
      16 < xv (scalars [0, 1, 9, 2, 8, 17, 16] State.reset) 5) ∧
    xv (scalars [0, 1, 9, 2, 8, 17, 16] State.reset) 6 ≤ 16 := by decide

theorem witness_InitMakesTheDecoderReady : State.reset.vstate = .unconf ∧ coded.vstate ≠ .unconf := by decide

theorem witness_VtResetStartsADecode :
    coded.vstate ≠ .ready ∧ (decoder [] 5 12 3 3 3).vstate = .ready ∧
    xv (scalars [0, 3, 4] (decoder [] 5 12 3 3 3)) 1 < 2 * (decoder [] 5 12 3 3 3).order.toNat - 2 ∧
    2 * (decoder [] 5 12 3 3 3).order.toNat - 2 ≤ xv (scalars [0, 3, 4] (decoder [] 5 12 3 3 3)) 2 := by
  decide

/-- A soft step runs with the distances that R157 gives. -/
theorem vtSteps_stepsWith (s : State) :
    StepsWith .vtSteps s ((List.range (2 ^ s.rate.toNat)).map fun o =>
      BitVec.ofNat 16 (if s.softmode then quadraticDistance s o else linearDistance s o)) :=
  .inr ⟨rfl, rfl⟩

/-- The last slice, in which states 0 to 3 keep three stale metrics, and the first, a warm-up slice, with
another write bank. -/
theorem witness_ATrellisStepWritesOnlyTheDecoder :
    let s := decoder [0, 0, 0, 0] 11 12 9 9 9
    s.rate.toNat ≤ 8 ∧ SliceLeft s ∧ 1 ≤ s.order.toNat ∧ (∃ dist, StepsWith .vtSteps s dist) ∧
    (∃ dist, StepsWith (.vtSteph 1) (scalars [0, 3] s) dist) ∧
    (List.replicate 8 (9 : Metric)).length = (if s.pmsel then s.pm0 else s.pm1).length ∧
    WrittenState s 0 ∧ ¬ WrittenState s 3 ∧
    WrittenState (decoder [0, 0, 0, 0] 0 12 0 0 0) 1 ∧ ¬ WrittenState (decoder [0, 0, 0, 0] 0 12 0 0 0) 2 :=
  ⟨by decide, ⟨rfl, by decide⟩, by decide, ⟨_, vtSteps_stepsWith _⟩, ⟨_, .inl ⟨1, rfl, by decide, rfl⟩⟩,
    by decide, by simp [WrittenState]; decide, by simp [WrittenState]; decide,
    by simp [WrittenState]; decide, by simp [WrittenState]; decide⟩

/-- The last warm-up slice of a K = 3 decode. -/
theorem witness_WarmUpSlicesAddWithoutComparing :
    let s := decoder [0, 0, 0, 0] 1 12 0 0 0
    s.CodeOk ∧ s.DecoderOk ∧ SliceLeft s ∧ (∃ dist, StepsWith .vtSteps s dist) ∧
    s.slice.toNat + 2 ≤ s.order.toNat :=
  ⟨decoder_codeOk .., decoder_decoderOk 1 12 0 0 0 (by decide) (by decide) (by decide) (by decide)
    (by decide) (by decide) (by decide), ⟨rfl, by decide⟩, ⟨_, vtSteps_stepsWith _⟩, by decide⟩

/-- The first inner slice, and the last tail slice. -/
theorem witness_InnerAndTailSlicesAddCompareSelect :
    (let s := decoder [0, 0, 0, 0] 2 12 0 0 0
     s.CodeOk ∧ s.DecoderOk ∧ SliceLeft s ∧ (∃ dist, StepsWith .vtSteps s dist) ∧
     s.order.toNat - 1 ≤ s.slice.toNat ∧ s.rcnt.toNat + 1 ≠ s.rint.toNat ∧ skipOf s = 1) ∧
    (let s := decoder [0, 0, 0, 0] 11 12 9 9 9
     s.CodeOk ∧ s.DecoderOk ∧ SliceLeft s ∧ (∃ dist, StepsWith .vtSteps s dist) ∧
     s.order.toNat - 1 ≤ s.slice.toNat ∧ s.rcnt.toNat + 1 ≠ s.rint.toNat ∧ skipOf s = 4) :=
  ⟨⟨decoder_codeOk .., decoder_decoderOk 2 12 0 0 0 (by decide) (by decide) (by decide) (by decide)
      (by decide) (by decide) (by decide), ⟨rfl, by decide⟩, ⟨_, vtSteps_stepsWith _⟩, by decide,
      by decide, by decide⟩,
    ⟨decoder_codeOk .., decoder_decoderOk 11 12 9 9 9 (by decide) (by decide) (by decide) (by decide)
      (by decide) (by decide) (by decide), ⟨rfl, by decide⟩, ⟨_, vtSteps_stepsWith _⟩, by decide,
      by decide, by decide⟩⟩

/-- The 128th inner slice. -/
theorem witness_RenormalisationSubtractsTheLeastMetric :
    let s := decoder [0, 0, 0, 0] 129 200 7 37 127
    s.CodeOk ∧ s.DecoderOk ∧ SliceLeft s ∧ (∃ dist, StepsWith .vtSteps s dist) ∧
    s.order.toNat - 1 ≤ s.slice.toNat ∧ s.rcnt.toNat + 1 = s.rint.toNat :=
  ⟨decoder_codeOk .., decoder_decoderOk 129 200 7 37 127 (by decide) (by decide) (by decide) (by decide)
    (by decide) (by decide) (by decide), ⟨rfl, by decide⟩, ⟨_, vtSteps_stepsWith _⟩, by decide, by decide⟩

/-- The 60th inner slice, which fills the ring, and the 59th, which does not. -/
theorem witness_AFullRingEmitsOneBurst :
    (let s := decoder [0, 0, 0, 0] 61 200 59 59 59
     s.CodeOk ∧ s.DecoderOk ∧ SliceLeft s ∧ (∃ dist, StepsWith .vtSteps s dist) ∧
     s.order.toNat - 1 ≤ s.slice.toNat ∧ s.hlen.toNat + 1 = s.cap.toNat) ∧
    (decoder [0, 0, 0, 0] 60 200 58 58 58).hlen.toNat + 1
      ≠ (decoder [0, 0, 0, 0] 60 200 58 58 58).cap.toNat :=
  ⟨⟨decoder_codeOk .., decoder_decoderOk 61 200 59 59 59 (by decide) (by decide) (by decide) (by decide)
    (by decide) (by decide) (by decide), ⟨rfl, by decide⟩, ⟨_, vtSteps_stepsWith _⟩, by decide,
    by decide⟩, by decide⟩

theorem witness_FlushEmitsTheRemainingHistory :
    coded.vstate ≠ .ready ∧ (decoder [] 11 12 9 9 9).slice ≠ (decoder [] 11 12 9 9 9).sets ∧
    (decoder [] 12 12 10 10 10).vstate = .ready ∧
    (decoder [] 12 12 10 10 10).slice = (decoder [] 12 12 10 10 10).sets := by decide

theorem witness_APathBackFollowsTheSurvivorBits :
    (decoder [0, 0, 0, 0] 12 12 10 10 10).CodeOk ∧ (decoder [0, 0, 0, 0] 12 12 10 10 10).vstate ≠ .unconf ∧
    59 < (decoder [0, 0, 0, 0] 12 12 10 10 10).cap.toNat ∧
    0 < (decoder [0, 0, 0, 0] 12 12 10 10 10).cap.toNat ∧
    3 < states (decoder [0, 0, 0, 0] 12 12 10 10 10) :=
  ⟨decoder_codeOk .., by decide, by decide, by decide, by decide⟩

/-- A decode of four slices, the fewest, at its end. -/
theorem witness_AFinishedDecodeHasOneBitPerInnerOrTailSlice :
    let s := decoder [0, 0, 0, 0] 4 4 2 2 2
    s.Inv ∧ s.vstate = .ready ∧ s.sets ≠ 0 ∧ s.slice = s.sets :=
  ⟨decoder_inv 4 4 2 2 2 (by decide) (by decide) (by decide) (by decide) (by decide) (by decide)
    (by decide), rfl, by decide, rfl⟩

theorem witness_QueueReadOutRemovesNothing :
    coded.vstate ≠ .ready ∧ (decoder [] 12 12 10 0 10).vstate = .ready ∧
    (decoder [] 12 12 10 0 10).outq.length ≤ xv (scalars [0, 10, 9] (decoder [] 12 12 10 0 10)) 1 ∧
    xv (scalars [0, 10, 9] (decoder [] 12 12 10 0 10)) 2 < (decoder [] 12 12 10 0 10).outq.length := by
  decide

theorem witness_TableAndMetricReadOut :
    xv (scalars [0, 7] (decoder [] 12 12 10 0 10)) 1 < 2 ^ (decoder [] 12 12 10 0 10).order.toNat ∧
    coded.vstate ≠ .unconf ∧ (decoder [] 12 12 10 0 10).vstate = .ready := by decide

theorem witness_TheEncoderShiftsAndLooksUp :
    State.reset.vstate = .unconf ∧ coded.vstate ≠ .unconf ∧ 1 < xv (scalars [0, 2, 1] coded) 1 ∧
    xv (scalars [0, 2, 1] coded) 2 ≤ 1 := by decide

end Sys2Proof.Tests
end

section
/-! What one command can do, said once for all 51 (`Effect`, `effect_of_exec`): the rules about what no
command writes (R12, R15, R30, R36) are case analyses of it. -/

namespace Sys2Proof.Machine

open Sys2Proof Sys2Proof.Claims

/-! ## The four large updates of a command, by name -/

/-- What a completed `VT.CFG` leaves (R171). -/
def State.configure (s : State) (rate order : Nat) : State :=
  { s with
    rate := BitVec.ofNat 4 rate
    order := BitVec.ofNat 5 order
    outtab := (List.range (2 ^ order)).map (outputSymbol s.poly rate)
    esr := 0
    vstate := .configured }

/-- What a completed `VT.INIT` leaves (R173). -/
def State.initialise (s : State) : State :=
  let cap := Config.tracebackFactor * s.order.toNat + Config.burstFactor * s.order.toNat
  { s with
    tbmin := BitVec.ofNat 16 (Config.tracebackFactor * s.order.toNat)
    tbburst := BitVec.ofNat 16 (Config.burstFactor * s.order.toNat)
    cap := BitVec.ofNat 16 cap
    rint := BitVec.ofNat 16 (65535 / (s.rate.toNat * 255))
    pm0 := List.replicate s.registerCount 0
    pm1 := List.replicate s.registerCount 0
    pmsel := false
    dist := List.replicate s.symbolCount 0
    hist := List.replicate cap (List.replicate s.stateCount false)
    hidx := 0, hlen := 0, rcnt := 0, slice := 0, sets := 0, outq := [], ovf := false
    vstate := .ready }

/-- What a completed `VT.RESET` for `sets` slices leaves (R174). -/
def State.startDecode (s : State) (sets : Word) : State :=
  { s with
    pm0 := List.replicate s.registerCount 0
    pm1 := List.replicate s.registerCount 0
    pmsel := false
    hidx := 0, hlen := 0, rcnt := 0, slice := 0, sets := sets, outq := [], ovf := false }

/-- What a completed `GF.BUILD` of `prim` leaves (R94). -/
def State.buildField (s : State) (prim : BitVec 9) : State :=
  { s with tab := buildTables prim, prim := prim, fvalid := true }

/-! ## Everything a command can do -/

/-- EVERYTHING A COMMAND CAN DO: `Effect i s t` says that `t` is a state in which the command `i` may end
when it runs in `s`, with those of its conditions that invariants rest on. -/
inductive Effect (i : Instr) (s : State) : State → Prop
  /-- a fault: the latch is written and nothing else (R262) -/
  | latched (c : Cause) : Effect i s (s.latch c (encode i))
  /-- `NOP` -/
  | nothing : Effect i s s
  /-- `CLRF` -/
  | cleared : Effect i s s.clearLatch
  /-- a result in the scalar register that the command names -/
  | scalar {d : XReg} (v : Word) (hd : scalarDest i = some d) : Effect i s (s.setX d v)
  /-- a result in the polynomial register that the command names -/
  | polynomial {d : PReg} (q : PolyReg) (hd : polyDest i = some d) : Effect i s (s.setP d q)
  /-- `P.ROOTS`, the one command that writes the scratch (R32) -/
  | roots {d a : PReg} (q b0 b1 : PolyReg) (sel : Bool) (hi : i = .pRoots d a) :
      Effect i s { s.setP d q with scr0 := b0, scr1 := b1, rsel := sel }
  /-- `GF.BUILD` with no tables built and an accepted operand -/
  | fieldBuilt {a : XReg} (hv : s.fvalid = false) (ha : ¬ primRefused (s.getX a)) :
      Effect i s (s.buildField ((s.getX a).setWidth 9))
  /-- `BM.SYM` and `BM.SYMI` -/
  | symbols (m : Mem Byte 8) : Effect i s { s with sym := m }
  /-- `VT.POLY` -/
  | generators (m : Mem Word 8) : Effect i s { s with poly := m }
  /-- `VT.MODE` -/
  | mode (b : Bool) : Effect i s { s with softmode := b }
  /-- `ENC.RST` -/
  | encoderReset : Effect i s { s with esr := 0 }
  /-- `ENC.BIT` -/
  | encoded {d : XReg} (bit v : Word) (hd : scalarDest i = some d) :
      Effect i s (({ s with esr := s.shiftedEsr bit } : State).setX d v)
  /-- `VT.CFG` with its rate and order in range -/
  | configured {a b : XReg} (hi : i = .vtCfg a b) (hrate : 2 ≤ xv s a ∧ xv s a ≤ 8)
      (horder : 2 ≤ xv s b ∧ xv s b ≤ 16) : Effect i s (s.configure (xv s a) (xv s b))
  /-- `VT.INIT` in a configured block -/
  | initialised (hi : i = .vtInit) (hs : s.vstate ≠ .unconf) : Effect i s s.initialise
  /-- `VT.RESET` in a ready decoder with slices enough -/
  | started {a : XReg} (hi : i = .vtReset a) (hs : s.vstate = .ready)
      (hn : 2 * s.order.toNat - 2 ≤ xv s a) : Effect i s (s.startDecode (s.getX a))
  /-- `VT.STEPH` and `VT.STEPS` with a slice left -/
  | stepped (dist : List Metric) (hi : i = .vtSteps ∨ ∃ a, i = .vtSteph a) (hs : SliceLeft s)
      (hd : dist.length = s.symbolCount) : Effect i s (s.trellisStep dist)
  /-- `VT.FLUSH` after the last slice -/
  | flushed (hi : i = .vtFlush) (hs : s.vstate = .ready) (hn : s.slice = s.sets) :
      Effect i s (s.traceback 0 0)

/-- A command that runs through `attempt` faults or has its effect. -/
theorem Effect.of_attempt {i : Instr} {s t : State} {checks : List Check} {effect : State → State}
    (h : attempt i s checks effect = .next t) (he : firstCause checks = none → Effect i s (effect s)) :
    Effect i s t :=
  attempt_keeps .latched he h

@[simp] theorem length_hardDistances (s : State) (r : Word) :
    (s.hardDistances r).length = s.symbolCount := by simp [State.hardDistances]

@[simp] theorem length_softDistances (s : State) : s.softDistances.length = s.symbolCount := by
  simp [State.softDistances]

/-- The check `noSlice` passes exactly where a slice is left (R163). -/
theorem noSlice_fst (s : State) : (noSlice s).1 = false ↔ SliceLeft s := by
  simp [noSlice, SliceLeft]

/-- `VT.CFG` completes exactly where rate and order are in range (R171). -/
theorem vtCfg_completes {a b : XReg} {s : State} :
    firstCause
      [raises .rate ((s.getX a).toNat < Config.rateMin ∨ Config.rateMax < (s.getX a).toNat),
       raises .order ((s.getX b).toNat < Config.orderMin ∨ Config.orderMax < (s.getX b).toNat)] = none ↔
      (2 ≤ xv s a ∧ xv s a ≤ 8) ∧ 2 ≤ xv s b ∧ xv s b ≤ 16 := by
  simp only [firstCause_eq_none, List.forall_mem_cons, raises_fst, decide_eq_false_iff_not]
  simp only [Config.rateMin, Config.rateMax, Config.orderMin, Config.orderMax, xv, not_or, not_lt,
    List.not_mem_nil, false_implies, implies_true, and_true]

/-- The inversion of `exec`: what it answers is one of the cases of `Effect`. -/
theorem effect_of_exec {i : Instr} {s t : State} (h : exec i s = .next t) : Effect i s t := by
  unfold exec at h
  cases i with
  | nop => cases h; exact .nothing
  | li d | lih d | mov d => cases h; exact .scalar _ rfl
  | clrf => cases h; exact .cleared
  | gfBuild a =>
    refine .of_attempt h fun hc => ?_
    simp only [firstCause_eq_none, List.forall_mem_cons, raises_fst, decide_eq_false_iff_not] at hc
    exact .fieldBuilt (by simpa using hc.1) hc.2.1
  | gfAdd d | gfSub d | gfMul d | gfDiv d | gfSum d | gfPow d | gfLog d | gfExp d | gfMullog d
  | gfDivlog d | pGetord d | pStc d | pEval d | pEvalp d | pEvall d | bmHard d | bmSoftl d | bmSoftq d
  | vtQlen d | vtRdq d | vtTab d | vtPm d => exact .of_attempt h fun _ => .scalar _ rfl
  | pSetord d | pLdc d | pLdci d | pClr d | pMov d | pMul d | pMod d | pDer d | pPows d | pTolog d =>
    exact .of_attempt h fun _ => .polynomial _ rfl
  | pRoots d a => exact .of_attempt h fun _ => .roots _ _ _ _ rfl
  | bmSym j | bmSymi j => exact .of_attempt h fun _ => .symbols _
  | vtPoly j => exact .of_attempt h fun _ => .generators _
  | vtMode n => exact .of_attempt h fun _ => .mode _
  | encRst => exact .of_attempt h fun _ => .encoderReset
  | encBit d a => exact .of_attempt h fun _ => .encoded _ _ rfl
  | vtCfg a b =>
    refine .of_attempt h fun hc => ?_
    obtain ⟨hrate, horder⟩ := vtCfg_completes.mp hc
    exact .configured rfl hrate horder
  | vtInit =>
    refine .of_attempt h fun hc => .initialised rfl ?_
    simpa [firstCause_eq_none, noCode] using hc
  | vtReset a =>
    refine .of_attempt h fun hc => ?_
    simp only [firstCause_eq_none, List.forall_mem_cons, notReady, raises_fst,
      decide_eq_false_iff_not, not_not] at hc
    obtain ⟨hready, hlen, -⟩ := hc
    exact .started rfl hready (by unfold xv; omega)
  | vtSteph a =>
    refine .of_attempt h fun hc => .stepped _ (.inr ⟨a, rfl⟩) ?_ (length_hardDistances _ _)
    exact (noSlice_fst s).mp (firstCause_eq_none.mp hc _ List.mem_cons_self)
  | vtSteps =>
    refine .of_attempt h fun hc => .stepped _ (.inl rfl) ?_ (length_softDistances _)
    exact (noSlice_fst s).mp (firstCause_eq_none.mp hc _ List.mem_cons_self)
  | vtFlush =>
    refine .of_attempt h fun hc => ?_
    simp only [firstCause_eq_none, List.forall_mem_cons, raises_fst, decide_eq_false_iff_not] at hc
    obtain ⟨hready, hlast⟩ := not_or.mp hc.1
    exact .flushed rfl (not_not.mp hready) (not_not.mp hlast)

theorem attempt_total (i : Instr) (s : State) (checks : List Check) (effect : State → State) :
    ∃ t, attempt i s checks effect = .next t := by
  rcases attempt_cases i s checks effect with ⟨_, _, h⟩ | ⟨_, h⟩ <;> exact ⟨_, h⟩

/-- No command stops the machine (R260). -/
theorem exec_total (i : Instr) (s : State) : ∃ t, exec i s = .next t := by
  unfold exec
  cases i with
  | nop | li | lih | mov | clrf => exact ⟨_, rfl⟩
  | _ => exact attempt_total _ _ _ _

end Sys2Proof.Machine
end

section
/-! What a trellis step leaves alone and what it does to each buffer (R175, R176, R179): the layer under
the decoder's invariant and under the frame of a step. -/

namespace Sys2Proof.Machine

open Sys2Proof

/-! ## The fields that the processing of a slice may write -/

/-- `t` differs from `s` at most in what the processing of a slice writes: the banks, `OVF`, the history
with its counters, and `OUTQ`. -/
def SliceFrame (s t : State) : Prop :=
  t = { s with
    pm0 := t.pm0, pm1 := t.pm1, ovf := t.ovf, hist := t.hist, hidx := t.hidx, hlen := t.hlen
    rcnt := t.rcnt, outq := t.outq }

namespace SliceFrame

variable {s t u : State}

theorem trans (h : SliceFrame s t) (h' : SliceFrame t u) : SliceFrame s u := by
  unfold SliceFrame at h' ⊢
  rw [h] at h'
  exact h'

/-- A field of `t`, read off the frame. -/
theorem field {α : Type} (h : SliceFrame s t) (f : State → α) :
    f t = f { s with
      pm0 := t.pm0, pm1 := t.pm1, ovf := t.ovf, hist := t.hist, hidx := t.hidx, hlen := t.hlen
      rcnt := t.rcnt, outq := t.outq } :=
  congrArg f h

theorem order (h : SliceFrame s t) : t.order = s.order := h.field State.order
theorem cap (h : SliceFrame s t) : t.cap = s.cap := h.field State.cap
theorem rint (h : SliceFrame s t) : t.rint = s.rint := h.field State.rint

theorem stateCount (h : SliceFrame s t) : t.stateCount = s.stateCount := by
  simp [State.stateCount, h.order]

theorem of_setWriteBank (s : State) (w : List Metric) : SliceFrame s (s.setWriteBank w) := by
  unfold State.setWriteBank
  split <;> rfl

theorem of_warmUpSlice (s : State) : SliceFrame s s.warmUpSlice :=
  (of_setWriteBank s _).trans rfl

theorem of_acsSlice (s : State) (skip : Nat) : SliceFrame s (s.acsSlice skip) :=
  (of_setWriteBank s _).trans rfl

theorem of_renormalise (s : State) (b : Nat) : SliceFrame s (s.renormalise b) :=
  of_setWriteBank s _

theorem of_history (s : State) (skip : Nat) : SliceFrame s (s.history skip) := by
  have counted : SliceFrame s s.countSlice := rfl
  have renormalised (b : Nat) : SliceFrame s { s.countSlice.renormalise b with rcnt := 0 } :=
    counted.trans ((of_renormalise _ b).trans rfl)
  rcases s.history_cases skip with ⟨_, _, e⟩ | ⟨_, _, e⟩ | ⟨_, _, e⟩ | ⟨_, _, e⟩ <;> rw [e]
  · exact counted
  · exact counted.trans rfl
  · exact renormalised _
  · exact (renormalised _).trans rfl

theorem of_slicePhase (s : State) : SliceFrame s s.slicePhase := by
  rcases s.slicePhase_cases with ⟨_, e⟩ | ⟨_, e⟩ <;> rw [e]
  · exact of_warmUpSlice s
  · exact (of_acsSlice s _).trans (of_history _ _)

end SliceFrame

/-- A trellis step writes the distance table, flips `PMSEL`, counts the slice, and writes what the
processing of a slice may write. -/
theorem State.trellisStep_frame (s : State) (dist : List Metric) :
    let t := s.trellisStep dist
    t = { s with
      dist := dist, pmsel := !s.pmsel, slice := s.slice + 1, pm0 := t.pm0, pm1 := t.pm1
      ovf := t.ovf, hist := t.hist, hidx := t.hidx, hlen := t.hlen, rcnt := t.rcnt, outq := t.outq } := by
  have h := SliceFrame.of_slicePhase { s with dist := dist }
  exact congrArg State.endSlice h

/-! ## The two banks (R22) -/

/-- What holds of the read and of the write bank is what holds of both banks. -/
theorem State.forall_banks (s : State) (P : List Metric → Prop) :
    (P s.pm0 ∧ P s.pm1) ↔ (P s.readBank ∧ P s.writeBank) := by
  unfold State.readBank State.writeBank pick; cases s.pmsel <;> simp [and_comm]

/-- After the end of a slice the bank just read is the write bank (R179). -/
@[simp] theorem State.writeBank_endSlice (s : State) : s.endSlice.writeBank = s.readBank := by
  unfold State.endSlice State.readBank State.writeBank pick; cases s.pmsel <;> rfl

@[simp] theorem State.readBank_warmUpSlice (s : State) : s.warmUpSlice.readBank = s.readBank :=
  s.readBank_setWriteBank _

@[simp] theorem State.writeBank_warmUpSlice (s : State) : s.warmUpSlice.writeBank =
    replaceAt s.writeBank (fun j => decide (j < s.warmCount)) s.warmMetric :=
  s.writeBank_setWriteBank _

@[simp] theorem State.readBank_acsSlice (s : State) (skip : Nat) :
    (s.acsSlice skip).readBank = s.readBank :=
  s.readBank_setWriteBank _

@[simp] theorem State.writeBank_acsSlice (s : State) (skip : Nat) :
    (s.acsSlice skip).writeBank = replaceAt s.writeBank (s.active skip) s.survivorMetric :=
  s.writeBank_setWriteBank _

@[simp] theorem State.readBank_renormalise (s : State) (b : Nat) :
    (s.renormalise b).readBank = s.readBank :=
  s.readBank_setWriteBank _

@[simp] theorem State.writeBank_renormalise (s : State) (b : Nat) :
    (s.renormalise b).writeBank = replaceAt s.writeBank (fun st => decide (st < s.stateCount))
      fun st => s.writeBank.getD st 0 - s.writeBank.getD b 0 :=
  s.writeBank_setWriteBank _

/-- History processing leaves the read bank and the survivor bits. -/
theorem State.history_keeps (s : State) (skip : Nat) :
    (s.history skip).readBank = s.readBank ∧ (s.history skip).hist = s.hist ∧
    (s.history skip).ovf = s.ovf := by
  rcases s.history_cases skip with ⟨_, _, e⟩ | ⟨_, _, e⟩ | ⟨_, _, e⟩ | ⟨_, _, e⟩ <;> rw [e]
  · exact ⟨rfl, rfl, rfl⟩
  · exact ⟨rfl, rfl, rfl⟩
  · exact ⟨s.countSlice.readBank_renormalise _, s.countSlice.hist_renormalise _,
      s.countSlice.ovf_renormalise _⟩
  · exact ⟨s.countSlice.readBank_renormalise _, s.countSlice.hist_renormalise _,
      s.countSlice.ovf_renormalise _⟩

/-- History processing leaves the write bank, or renormalises it (R168). -/
theorem State.writeBank_history (s : State) (skip : Nat) :
    (s.history skip).writeBank = s.writeBank ∨
    ∃ b, (s.history skip).writeBank = (s.countSlice.renormalise b).writeBank := by
  rcases s.history_cases skip with ⟨_, _, e⟩ | ⟨_, _, e⟩ | ⟨_, _, e⟩ | ⟨_, _, e⟩ <;> rw [e]
  · exact .inl rfl
  · exact .inl rfl
  · exact .inr ⟨_, rfl⟩
  · exact .inr ⟨_, rfl⟩

/-- `w'` comes from `w` by writing entries below `n` only. -/
structure LowerWritten (n : Nat) (w w' : List Metric) : Prop where
  length : w'.length = w.length
  upper : ∀ k, n ≤ k → w'.getD k 0 = w.getD k 0

namespace LowerWritten

variable {n : Nat} {w w' w'' : List Metric}

theorem refl (n : Nat) (w : List Metric) : LowerWritten n w w := ⟨rfl, fun _ _ => rfl⟩

theorem trans (h : LowerWritten n w w') (h' : LowerWritten n w' w'') : LowerWritten n w w'' :=
  ⟨h'.length.trans h.length, fun k hk => (h'.upper k hk).trans (h.upper k hk)⟩

theorem of_replaceAt (w : List Metric) (active : Nat → Bool) (f : Nat → Metric)
    (ha : ∀ k, active k = true → k < n) : LowerWritten n w (replaceAt w active f) where
  length := replaceAt_length _ _ _
  upper k hk := by
    rw [replaceAt_getD, if_neg]
    exact fun ⟨_, hact⟩ => absurd (ha k hact) (by omega)

end LowerWritten

/-- An active state is a trellis state. -/
theorem State.lt_of_active {s : State} {skip k : Nat} (h : s.active skip k = true) :
    k < s.stateCount := by
  simp only [State.active, Bool.and_eq_true, decide_eq_true_eq] at h
  exact h.1

/-- A warm-up slice writes no more register values than there are trellis states. -/
theorem State.warmCount_le {s : State} (h : s.slice.toNat + 2 ≤ s.order.toNat) :
    s.warmCount ≤ s.stateCount :=
  Nat.pow_le_pow_right (by omega) (by omega)

/-- The processing of a slice leaves the read bank. -/
theorem State.readBank_slicePhase (s : State) : s.slicePhase.readBank = s.readBank := by
  rcases s.slicePhase_cases with ⟨_, e⟩ | ⟨_, e⟩ <;> rw [e]
  · exact s.readBank_warmUpSlice
  · exact ((s.acsSlice _).history_keeps _).1.trans (s.readBank_acsSlice _)

/-- Of the write bank the processing of a slice writes the lower half only (R161). -/
theorem State.writeBank_slicePhase (s : State) :
    LowerWritten s.stateCount s.writeBank s.slicePhase.writeBank := by
  rcases s.slicePhase_cases with ⟨hw, e⟩ | ⟨_, e⟩ <;> rw [e]
  · rw [State.writeBank_warmUpSlice]
    refine .of_replaceAt _ _ _ fun k hk => ?_
    exact lt_of_lt_of_le (of_decide_eq_true hk) (State.warmCount_le hw)
  · generalize hskip : s.phase.skip = skip
    have acs : LowerWritten s.stateCount s.writeBank (s.acsSlice skip).writeBank := by
      rw [State.writeBank_acsSlice]
      exact .of_replaceAt _ _ _ fun k hk => State.lt_of_active hk
    refine acs.trans ?_
    rcases (s.acsSlice skip).writeBank_history skip with e | ⟨b, e⟩ <;> rw [e]
    · exact .refl _ _
    · rw [State.writeBank_renormalise]
      have hcount : (s.acsSlice skip).countSlice.stateCount = s.stateCount :=
        (SliceFrame.of_acsSlice s skip).stateCount
      rw [hcount]
      exact .of_replaceAt _ _ _ fun k hk => of_decide_eq_true hk

/-! ## The history ring (R25) -/

/-- The processing of a slice leaves the ring, or writes some entries of the slot `HIDX`. -/
theorem State.hist_slicePhase (s : State) :
    s.slicePhase.hist = s.hist ∨ ∃ active f, s.slicePhase.hist =
      s.hist.set s.hidx.toNat (replaceAt (s.hist.getD s.hidx.toNat []) active f) := by
  rcases s.slicePhase_cases with ⟨_, e⟩ | ⟨_, e⟩ <;> rw [e]
  · exact .inl (s.hist_setWriteBank _)
  · exact .inr ⟨_, _, ((s.acsSlice _).history_keeps _).2.1⟩

end Sys2Proof.Machine
end

section
/-! The invariant of the block (`State.Inv`): it holds after reset, and every step keeps it. Each unit's
part depends on that unit's fields only (the `frame` lemmas); what is left is one lemma for each command
that writes the unit. -/

namespace Sys2Proof.Machine

open Sys2Proof Sys2Proof.Claims

variable {s t : State}

/-! ## Each part of the invariant depends on its unit's fields -/

theorem State.LatchOk.frame (h : s.LatchOk) (hfault : t.fault = s.fault) (hcause : t.cause = s.cause)
    (heinfo : t.einfo = s.einfo) : t.LatchOk where
  clear := by rw [hfault, hcause, heinfo]; exact h.clear
  held := by rw [hfault, hcause]; exact h.held

theorem State.FieldOk.frame (h : s.FieldOk) (hvalid : t.fvalid = s.fvalid) (hprim : t.prim = s.prim)
    (htab : t.tab = s.tab) : t.FieldOk where
  accepted := by rw [hvalid, hprim]; exact h.accepted
  tables := by rw [hvalid, hprim, htab]; exact h.tables

theorem State.CodeOk.frame (h : s.CodeOk)
    (e : t = { t with
      vstate := s.vstate, rate := s.rate, order := s.order, outtab := s.outtab, esr := s.esr }) :
    t.CodeOk := by
  rw [e]
  exact ⟨h.unconf, h.rate, h.order, h.extent, h.symbols, h.register⟩

theorem State.DecoderOk.frame (h : s.DecoderOk)
    (e : t = { t with
      rate := s.rate, order := s.order, tbmin := s.tbmin, tbburst := s.tbburst, cap := s.cap
      rint := s.rint, pm0 := s.pm0, pm1 := s.pm1, dist := s.dist, hist := s.hist, hidx := s.hidx
      hlen := s.hlen, rcnt := s.rcnt, slice := s.slice, sets := s.sets, outq := s.outq }) :
    t.DecoderOk := by
  rw [e]
  exact ⟨h.tbmin, h.tbburst, h.cap, h.rint, h.bank0, h.bank1, h.upper0, h.upper1, h.dist, h.ring,
    h.slots, h.hidx, h.hlen, h.rcnt, h.slice, h.sets, h.emitted⟩

/-- The invariant says nothing of the registers, the scratch, the generators, the soft symbols and their
mode, and the events to come. -/
theorem State.Inv.frame (h : s.Inv)
    (e : t = { s with
      x := t.x, p := t.p, poly := t.poly, softmode := t.softmode, sym := t.sym, scr0 := t.scr0
      scr1 := t.scr1, rsel := t.rsel, host := t.host, draws := t.draws }) : t.Inv := by
  rw [e]
  exact ⟨h.latch.frame rfl rfl rfl, h.field.frame rfl rfl rfl, h.code.frame rfl,
    fun hr => (h.decoder hr).frame rfl⟩

/-! ## The latch -/

theorem State.LatchOk.of_latch (s : State) (c : Cause) (w : Word) : (s.latch c w).LatchOk where
  clear := by intro h; cases h
  held := fun _ => c.code_bounds

theorem State.LatchOk.clearLatch (h : s.LatchOk) : s.clearLatch.LatchOk := by
  cases hf : s.fault with
  | true =>
    rw [State.clearLatch_of_fault hf]
    exact ⟨fun _ => ⟨rfl, rfl⟩, by intro h; cases h⟩
  | false => rwa [State.clearLatch_of_clear hf]

theorem State.Inv.latch_kept (h : s.Inv) (c : Cause) (w : Word) : (s.latch c w).Inv :=
  ⟨.of_latch s c w, h.field.frame rfl rfl rfl, h.code.frame rfl, fun hr => (h.decoder hr).frame rfl⟩

theorem State.Inv.clearLatch (h : s.Inv) : s.clearLatch.Inv := by
  refine ⟨h.latch.clearLatch, h.field.frame (by simp) (by simp) (by simp), ?_, ?_⟩
  · exact h.code.frame (by unfold State.clearLatch; split <;> rfl)
  · exact fun hr => (h.decoder (by simpa using hr)).frame (by unfold State.clearLatch; split <;> rfl)

/-! ## Reset -/

/-- The invariant rests on those of R34's items that have a value, and on no other. -/
theorem State.Inv.of_reset (hfault : t.fault = false) (hcause : t.cause = 0 ∧ t.einfo = 0)
    (hvalid : t.fvalid = false) (hs : t.vstate = .unconf)
    (hcode : t.rate = 0 ∧ t.order = 0 ∧ t.outtab = []) (hesr : t.esr = 0) : t.Inv where
  latch := ⟨fun _ => hcause, by simp [hfault]⟩
  field := ⟨by simp [hvalid], by simp [hvalid]⟩
  code :=
    { unconf := fun _ => hcode
      rate := fun h => absurd hs h
      order := fun h => absurd hs h
      extent := fun h => absurd hs h
      symbols := by simp [hcode.2.2]
      register := by simp [hesr, State.registerCount] }
  decoder := by simp [hs]

theorem State.reset_inv : State.reset.Inv := .of_reset rfl ⟨rfl, rfl⟩ rfl rfl ⟨rfl, rfl, rfl⟩ rfl

theorem State.afterReset_inv (s : State) : s.afterReset.Inv :=
  .of_reset rfl ⟨rfl, rfl⟩ rfl rfl ⟨rfl, rfl, rfl⟩ rfl

/-! ## The field unit -/

/-- An accepted operand of `GF.BUILD` has 9 bits, so `PRIM` holds all of it (R94). -/
theorem setWidth_prim_of_accepted {v : Word} (h : ¬ primRefused v) :
    (v.setWidth 9).setWidth 32 = v := by
  have hv : v.toNat ≤ 0x1FF := by
    simp only [primRefused, not_or, not_lt] at h
    exact h.2.1
  apply BitVec.eq_of_toNat_eq
  simp only [BitVec.toNat_setWidth]
  omega

theorem State.Inv.buildField (h : s.Inv) {v : Word} (hv : ¬ primRefused v) :
    (s.buildField (v.setWidth 9)).Inv where
  latch := h.latch.frame rfl rfl rfl
  field := ⟨fun _ => (setWidth_prim_of_accepted hv).symm ▸ hv, fun _ => rfl⟩
  code := h.code.frame rfl
  decoder := fun hr => (h.decoder hr).frame rfl

/-! ## The code and the encoder -/

/-- An output symbol has `rate` bits (R20). -/
theorem outputSymbol_lt (poly : Mem Word 8) (rate v : Nat) :
    (outputSymbol poly rate v).toNat < 2 ^ rate := by
  unfold outputSymbol
  induction rate with
  | zero => simp
  | succ n ih =>
    rw [List.range_succ, List.foldl_append, List.foldl_cons, List.foldl_nil]
    have hlt : 2 ^ n < 2 ^ (n + 1) := Nat.pow_lt_pow_right (by omega) (by omega)
    have htap : (BitVec.twoPow 8 n).toNat < 2 ^ (n + 1) := by
      rw [BitVec.toNat_twoPow]
      exact lt_of_le_of_lt (Nat.mod_le _ _) hlt
    split
    · rw [BitVec.toNat_or]
      exact Nat.or_lt_two_pow (ih.trans hlt) htap
    · exact ih.trans hlt

theorem State.configure_codeOk (s : State) {rate order : Nat} (hrate : 2 ≤ rate ∧ rate ≤ 8)
    (horder : 2 ≤ order ∧ order ≤ 16) : (s.configure rate order).CodeOk := by
  have hr : (s.configure rate order).rate.toNat = rate := Nat.mod_eq_of_lt (by omega)
  have ho : (s.configure rate order).order.toNat = order := Nat.mod_eq_of_lt (by omega)
  constructor
  case unconf => intro h; cases h
  case rate => rw [hr]; exact fun _ => hrate
  case order => rw [ho]; exact fun _ => horder
  case extent =>
    rw [State.registerCount, ho]
    simp [State.configure]
  case symbols =>
    intro o hmem
    obtain ⟨v, -, rfl⟩ := List.mem_map.mp hmem
    rw [State.symbolCount, hr]
    exact outputSymbol_lt _ _ _
  case register => exact Nat.two_pow_pos _

/-- The shift register keeps `ORDER` bits (R202). -/
theorem State.shiftedEsr_lt (s : State) (bit : Word) : (s.shiftedEsr bit).toNat < s.registerCount := by
  have hpos : 0 < s.registerCount := Nat.two_pow_pos _
  have hand := Nat.and_le_right (n := s.esr.toNat <<< 1 ||| bit.toNat) (m := s.registerCount - 1)
  have hmod := Nat.mod_le ((s.esr.toNat <<< 1 ||| bit.toNat) &&& (s.registerCount - 1)) (2 ^ 16)
  rw [State.shiftedEsr, BitVec.toNat_ofNat]
  omega

/-- A value of `ORDER` bits may be put into `ESR`. -/
theorem State.Inv.withEsr (h : s.Inv) {v : BitVec 16} (hv : v.toNat < s.registerCount) :
    ({ s with esr := v } : State).Inv where
  latch := h.latch.frame rfl rfl rfl
  field := h.field.frame rfl rfl rfl
  code := ⟨h.code.unconf, h.code.rate, h.code.order, h.code.extent, h.code.symbols, hv⟩
  decoder := fun hr => (h.decoder hr).frame rfl

/-! ## The decoder: `VT.INIT`, `VT.RESET`, `VT.FLUSH` -/

/-- A list of zeros reads 0 at every index. -/
theorem getD_replicate_zero (n k : Nat) : (List.replicate n (0 : Metric)).getD k 0 = 0 := by
  by_cases h : k < n <;> simp [List.getD, h]

/-- The renormalisation interval of a configured code is at least 1 (R173). -/
theorem renormInterval_pos {rate : Nat} (h : rate ≤ 8) (h0 : 2 ≤ rate) : 0 < 65535 / (rate * 255) :=
  Nat.div_pos (by omega) (by omega)

theorem State.CodeOk.initialise (h : s.CodeOk) (hs : s.vstate ≠ .unconf) :
    s.initialise.DecoderOk := by
  obtain ⟨hr0, hr1⟩ := h.rate hs
  obtain ⟨ho0, ho1⟩ := h.order hs
  simp only [Config.rateMin, Config.rateMax, Config.orderMin, Config.orderMax] at hr0 hr1 ho0 ho1
  have hcap : s.initialise.cap.toNat = 20 * s.order.toNat := by
    simp only [State.initialise, Config.tracebackFactor, Config.burstFactor, BitVec.toNat_ofNat]
    omega
  have hrint : s.initialise.rint.toNat = 65535 / (s.rate.toNat * 255) :=
    Nat.mod_eq_of_lt (lt_of_le_of_lt (Nat.div_le_self _ _) (by omega))
  have hpos := renormInterval_pos hr1 hr0
  have hslots : s.initialise.hist.length = 20 * s.order.toNat := by
    simp only [State.initialise, Config.tracebackFactor, Config.burstFactor, List.length_replicate]
    omega
  exact
    { tbmin := Nat.mod_eq_of_lt (by simp only [Config.tracebackFactor]; omega)
      tbburst := Nat.mod_eq_of_lt (by simp only [Config.burstFactor]; omega)
      cap := hcap
      rint := hrint
      bank0 := List.length_replicate
      bank1 := List.length_replicate
      upper0 := fun _ _ => getD_replicate_zero _ _
      upper1 := fun _ _ => getD_replicate_zero _ _
      dist := List.length_replicate
      ring := hslots.trans hcap.symm
      slots := fun l hl => by rw [List.eq_of_mem_replicate hl, List.length_replicate]; rfl
      hidx := by rw [hcap]; exact Nat.mul_pos (by omega) (by omega)
      hlen := by rw [hcap]; exact Nat.mul_pos (by omega) (by omega)
      rcnt := by rw [hrint]; exact hpos
      slice := le_refl _
      sets := .inl rfl
      emitted := (Nat.zero_sub _).symm }

theorem State.DecoderOk.startDecode (h : s.DecoderOk) {sets : Word}
    (hsets : 2 * s.order.toNat - 2 ≤ sets.toNat) : (s.startDecode sets).DecoderOk :=
  { tbmin := h.tbmin
    tbburst := h.tbburst
    cap := h.cap
    rint := h.rint
    bank0 := List.length_replicate
    bank1 := List.length_replicate
    upper0 := fun _ _ => getD_replicate_zero _ _
    upper1 := fun _ _ => getD_replicate_zero _ _
    dist := h.dist
    ring := h.ring
    slots := h.slots
    hidx := Nat.zero_lt_of_lt h.hidx
    hlen := Nat.zero_lt_of_lt h.hlen
    rcnt := Nat.zero_lt_of_lt h.rcnt
    slice := Nat.zero_le _
    sets := .inr hsets
    emitted := (Nat.zero_sub _).symm }

/-- A traceback over a ring of more than `mind` slots keeps `mind` of them (R178). -/
theorem State.toNat_hlen_traceback (b : Nat) {mind : Nat} (h : mind ≤ s.hlen.toNat) :
    (s.traceback b mind).hlen.toNat = mind := by
  have hlt := s.hlen.isLt
  rw [State.traceback_eq]
  simp only [BitVec.toNat_sub, BitVec.toNat_ofNat]
  omega

/-- A traceback moves bits from the ring to `OUTQ`: together they stay as many (R178). -/
theorem State.emitted_traceback (b : Nat) {mind : Nat} (h : mind ≤ s.hlen.toNat) :
    (s.traceback b mind).outq.length + (s.traceback b mind).hlen.toNat =
      s.outq.length + s.hlen.toNat := by
  rw [State.toNat_hlen_traceback b h, State.traceback_eq]
  simp only [List.length_append, List.length_reverse, List.length_drop, State.length_pathBits]
  omega

theorem State.DecoderOk.flush (h : s.DecoderOk) : (s.traceback 0 0).DecoderOk :=
  { h with
    hlen := by
      rw [State.toNat_hlen_traceback 0 (Nat.zero_le _)]
      exact Nat.zero_lt_of_lt h.hlen
    emitted := (State.emitted_traceback 0 (Nat.zero_le _)).trans h.emitted }

/-! ## The decoder: a trellis step -/

/-- The counters of the history are in range, and `n` bits have been emitted or are held (R25, R183). -/
structure CountersOk (s : State) (n : Nat) : Prop where
  hidx : s.hidx.toNat < s.cap.toNat
  hlen : s.hlen.toNat ≤ s.cap.toNat
  rcnt : s.rcnt.toNat < s.rint.toNat
  emitted : s.outq.length + s.hlen.toNat = n

/-- The traceback of a full ring keeps `TBMIN` slots and loses no bit (R168). -/
theorem CountersOk.traceback {n : Nat} (h : CountersOk s n) (hmin : s.tbmin.toNat < s.cap.toNat)
    (hfull : s.hlen = s.cap) (b : Nat) :
    CountersOk (s.traceback b s.tbmin.toNat) n ∧
    (s.traceback b s.tbmin.toNat).hlen.toNat < (s.traceback b s.tbmin.toNat).cap.toNat := by
  have hle : s.tbmin.toNat ≤ s.hlen.toNat := by rw [hfull]; exact hmin.le
  have hkept := State.toNat_hlen_traceback b hle
  exact ⟨⟨h.hidx, hkept.trans_le hmin.le, h.rcnt, (State.emitted_traceback b hle).trans h.emitted⟩,
    hkept.trans_lt hmin⟩

/-- A ring that is not full stays as it is (R168). -/
theorem CountersOk.not_full {n : Nat} (h : CountersOk s n) (hne : s.hlen ≠ s.cap) :
    CountersOk s n ∧ s.hlen.toNat < s.cap.toNat :=
  ⟨h, lt_of_le_of_ne h.hlen fun e => hne (BitVec.eq_of_toNat_eq e)⟩

theorem State.toNat_rcnt_countSlice (h : s.rcnt.toNat < s.rint.toNat) :
    s.countSlice.rcnt.toNat = s.rcnt.toNat + 1 :=
  BitVec.toNat_add_of_lt (lt_of_le_of_lt h s.rint.isLt)

theorem State.toNat_hlen_countSlice (h : s.hlen.toNat < s.cap.toNat) :
    s.countSlice.hlen.toNat = s.hlen.toNat + 1 :=
  BitVec.toNat_add_of_lt (lt_of_le_of_lt h s.cap.isLt)

theorem State.hidx_countSlice_lt (h : s.hlen.toNat < s.cap.toNat) :
    s.countSlice.hidx.toNat < s.cap.toNat := by
  rw [State.hidx_countSlice, BitVec.toNat_ofNat]
  exact lt_of_le_of_lt (Nat.mod_le _ _) (Nat.mod_lt _ (Nat.zero_lt_of_lt h))

/-- History processing counts one slot, and leaves the counters in range with room in the ring: a full
interval starts again at 0 and a full ring is cut back to `TBMIN` (R168). -/
theorem CountersOk.history {n : Nat} (h : CountersOk s n) (hmin : s.tbmin.toNat < s.cap.toNat)
    (hroom : s.hlen.toNat < s.cap.toNat) (skip : Nat) :
    CountersOk (s.history skip) (n + 1) ∧
    (s.history skip).hlen.toNat < (s.history skip).cap.toNat := by
  have hhidx := State.hidx_countSlice_lt hroom
  have hhlen := State.toNat_hlen_countSlice hroom
  have hhrcnt := State.toNat_rcnt_countSlice h.rcnt
  have hle : s.countSlice.hlen.toNat ≤ s.cap.toNat := hhlen.trans_le hroom
  have hemitted : s.outq.length + s.countSlice.hlen.toNat = n + 1 := by
    rw [hhlen, ← h.emitted, Nat.add_assoc]
  have counted (hne : s.countSlice.rcnt ≠ s.countSlice.rint) : CountersOk s.countSlice (n + 1) :=
    ⟨hhidx, hle, lt_of_le_of_ne (hhrcnt.trans_le h.rcnt) fun e => hne (BitVec.eq_of_toNat_eq e),
      hemitted⟩
  have renormalised (b : Nat) :
      CountersOk { s.countSlice.renormalise b with rcnt := 0 } (n + 1) := by
    constructor <;> simp only [State.hidx_renormalise, State.hlen_renormalise, State.cap_renormalise,
      State.rint_renormalise, State.outq_renormalise]
    · exact hhidx
    · exact hle
    · exact Nat.zero_lt_of_lt h.rcnt
    · exact hemitted
  rcases s.history_cases skip with ⟨hr, hl, e⟩ | ⟨hr, hl, e⟩ | ⟨-, hl, e⟩ | ⟨-, hl, e⟩ <;> rw [e]
  · exact (counted hr).not_full hl
  · exact (counted hr).traceback hmin hl _
  · exact (renormalised _).not_full hl
  · refine (renormalised _).traceback ?_ hl _
    rw [State.tbmin_renormalise, State.cap_renormalise]
    exact hmin

theorem CountersOk.frame {n : Nat} (h : CountersOk s n)
    (e : t = { t with
      hidx := s.hidx, hlen := s.hlen, cap := s.cap, rcnt := s.rcnt, rint := s.rint, outq := s.outq }) :
    CountersOk t n := by
  rw [e]
  exact ⟨h.hidx, h.hlen, h.rcnt, h.emitted⟩

/-- Add-compare-select writes no counter: only history processing does. -/
theorem CountersOk.acsSlice {n : Nat} (h : CountersOk s n) (skip : Nat) :
    CountersOk (s.acsSlice skip) n :=
  h.frame (by unfold State.acsSlice State.setWriteBank; cases s.pmsel <;> rfl)

theorem CountersOk.warmUpSlice {n : Nat} (h : CountersOk s n) : CountersOk s.warmUpSlice n :=
  h.frame (by unfold State.warmUpSlice State.setWriteBank; cases s.pmsel <;> rfl)

/-- The processing of a slice leaves the counters in range; past the warm-up it counts one bit more
(R164, R168). -/
theorem CountersOk.slicePhase {n : Nat} (h : CountersOk s n) (hmin : s.tbmin.toNat < s.cap.toNat)
    (hroom : s.hlen.toNat < s.cap.toNat) :
    CountersOk s.slicePhase (if s.slice.toNat + 2 ≤ s.order.toNat then n else n + 1) ∧
    s.slicePhase.hlen.toNat < s.slicePhase.cap.toNat := by
  rcases s.slicePhase_cases with ⟨hw, e⟩ | ⟨hw, e⟩ <;> rw [e]
  · rw [if_pos hw]
    refine ⟨h.warmUpSlice, ?_⟩
    simpa only [State.warmUpSlice, State.hlen_setWriteBank, State.cap_setWriteBank] using hroom
  · rw [if_neg (by omega)]
    refine (h.acsSlice _).history ?_ ?_ _
    · simpa only [State.acsSlice, State.tbmin_setWriteBank, State.cap_setWriteBank] using hmin
    · simpa only [State.acsSlice, State.hlen_setWriteBank, State.cap_setWriteBank] using hroom

/-- The extent of a bank, and its unused upper half (R22, R161). -/
def State.BankOk (s : State) (w : List Metric) : Prop :=
  w.length = s.registerCount ∧ ∀ k, s.stateCount ≤ k → w.getD k 0 = 0

theorem State.BankOk.of_lowerWritten {w w' : List Metric} (h : s.BankOk w)
    (hw : LowerWritten s.stateCount w w') : s.BankOk w' :=
  ⟨hw.length.trans h.1, fun k hk => (hw.upper k hk).trans (h.2 k hk)⟩

/-- Both banks keep their extent and their zero upper half in a trellis step. -/
theorem State.DecoderOk.banks_trellisStep (h : s.DecoderOk) (dist : List Metric) :
    s.BankOk (s.trellisStep dist).pm0 ∧ s.BankOk (s.trellisStep dist).pm1 := by
  have before : s.BankOk s.readBank ∧ s.BankOk s.writeBank :=
    (s.forall_banks _).mp ⟨⟨h.bank0, h.upper0⟩, ⟨h.bank1, h.upper1⟩⟩
  have written := State.writeBank_slicePhase { s with dist := dist }
  have kept := State.readBank_slicePhase { s with dist := dist }
  rw [State.forall_banks, State.trellisStep, State.readBank_endSlice, State.writeBank_endSlice, kept]
  exact ⟨before.2.of_lowerWritten written, before.1⟩

/-- The ring keeps its extent, and each slot its own, in a trellis step. -/
theorem State.DecoderOk.ring_trellisStep (h : s.DecoderOk) (dist : List Metric) :
    (s.trellisStep dist).hist.length = s.cap.toNat ∧
    ∀ slot ∈ (s.trellisStep dist).hist, slot.length = s.stateCount := by
  have hring : s.hidx.toNat < s.hist.length := h.ring ▸ h.hidx
  rcases State.hist_slicePhase { s with dist := dist } with e | ⟨active, f, e⟩
  · have e' : (s.trellisStep dist).hist = s.hist := e
    rw [e']
    exact ⟨h.ring, h.slots⟩
  · have e' : (s.trellisStep dist).hist =
      s.hist.set s.hidx.toNat (replaceAt (s.hist.getD s.hidx.toNat []) active f) := e
    rw [e']
    refine ⟨List.length_set.trans h.ring, fun slot hslot => ?_⟩
    rcases List.mem_or_eq_of_mem_set hslot with hmem | rfl
    · exact h.slots slot hmem
    · rw [replaceAt_length, List.getD_eq_getElem _ _ hring]
      exact h.slots _ (List.getElem_mem hring)

/-- A trellis step with a slice left keeps the decoder's part of the invariant. -/
theorem State.DecoderOk.trellisStep (h : s.DecoderOk) (hleft : s.slice.toNat < s.sets.toNat)
    {dist : List Metric} (hdist : dist.length = s.symbolCount) : (s.trellisStep dist).DecoderOk := by
  have counters : CountersOk { s with dist := dist } (s.slice.toNat - (s.order.toNat - 1)) :=
    ⟨h.hidx, h.hlen.le, h.rcnt, h.emitted⟩
  have hmin : s.tbmin.toNat < s.cap.toNat := by
    have := h.hidx
    have := h.tbmin
    have := h.cap
    omega
  obtain ⟨⟨hhidx, -, hrcnt, hemitted⟩, hhlen⟩ := counters.slicePhase hmin h.hlen
  obtain ⟨⟨hbank0, hupper0⟩, ⟨hbank1, hupper1⟩⟩ := h.banks_trellisStep dist
  obtain ⟨hring, hslots⟩ := h.ring_trellisStep dist
  have frame := SliceFrame.of_slicePhase { s with dist := dist }
  have hslice : (s.slice + 1).toNat = s.slice.toNat + 1 :=
    BitVec.toNat_add_of_lt (lt_of_le_of_lt hleft s.sets.isLt)
  rw [s.trellisStep_frame dist]
  exact
    { tbmin := h.tbmin
      tbburst := h.tbburst
      cap := h.cap
      rint := h.rint
      bank0 := hbank0
      bank1 := hbank1
      upper0 := hupper0
      upper1 := hupper1
      dist := hdist
      ring := hring
      slots := hslots
      hidx := frame.cap ▸ hhidx
      hlen := frame.cap ▸ hhlen
      rcnt := frame.rint ▸ hrcnt
      slice := hslice.trans_le hleft
      sets := h.sets
      emitted := by
        refine hemitted.trans ?_
        rw [hslice]
        dsimp only
        split <;> omega }

/-! ## Every command and every event -/

/-- Where only the decoder's buffers and counters were written, its part alone is to be shown. -/
theorem State.Inv.of_decoder (h : s.Inv)
    (e : t = { s with
      pm0 := t.pm0, pm1 := t.pm1, pmsel := t.pmsel, dist := t.dist, hist := t.hist, hidx := t.hidx
      hlen := t.hlen, rcnt := t.rcnt, slice := t.slice, sets := t.sets, outq := t.outq, ovf := t.ovf })
    (hd : t.DecoderOk) : t.Inv := by
  rw [e] at hd ⊢
  exact ⟨h.latch.frame rfl rfl rfl, h.field.frame rfl rfl rfl, h.code.frame rfl, fun _ => hd⟩

theorem State.Inv.configure (h : s.Inv) {rate order : Nat} (hrate : 2 ≤ rate ∧ rate ≤ 8)
    (horder : 2 ≤ order ∧ order ≤ 16) : (s.configure rate order).Inv where
  latch := h.latch.frame rfl rfl rfl
  field := h.field.frame rfl rfl rfl
  code := s.configure_codeOk hrate horder
  decoder := by intro hr; cases hr

theorem State.Inv.initialise (h : s.Inv) (hs : s.vstate ≠ .unconf) : s.initialise.Inv where
  latch := h.latch.frame rfl rfl rfl
  field := h.field.frame rfl rfl rfl
  code :=
    { unconf := by intro hu; cases hu
      rate := fun _ => h.code.rate hs
      order := fun _ => h.code.order hs
      extent := fun _ => h.code.extent hs
      symbols := h.code.symbols
      register := h.code.register }
  decoder := fun _ => h.code.initialise hs

/-- Every command keeps the invariant. -/
theorem State.Inv.effect {i : Instr} (h : s.Inv) (he : Effect i s t) : t.Inv := by
  cases he with
  | latched c => exact h.latch_kept c _
  | nothing => exact h
  | cleared => exact h.clearLatch
  | scalar | polynomial | roots | symbols | generators | mode => exact h.frame rfl
  | fieldBuilt _ ha => exact h.buildField ha
  | encoderReset => exact h.withEsr (Nat.two_pow_pos _)
  | encoded bit => exact (h.withEsr (s.shiftedEsr_lt bit)).frame rfl
  | configured _ hrate horder => exact h.configure hrate horder
  | initialised _ hs => exact h.initialise hs
  | started _ hs hn => exact h.of_decoder rfl ((h.decoder hs).startDecode hn)
  | stepped dist _ hs hd =>
    refine h.of_decoder ?_ ((h.decoder hs.1).trellisStep hs.2 hd)
    rw [s.trellisStep_frame dist]
  | flushed _ hs => exact h.of_decoder rfl (h.decoder hs).flush

/-- Every event of the host keeps the invariant. -/
theorem State.Inv.step (h : s.Inv) (ht : step s = .next t) : t.Inv := by
  have taken (rest : List HostEvent) : ({ s with host := rest } : State).Inv := h.frame rfl
  rcases step_cases s with ⟨_, e⟩ | ⟨rest, _, e⟩ | ⟨_, rest, _, _, _, e⟩ | ⟨rest, _, _, e⟩ |
    ⟨_, rest, _, _, _, _, e⟩ | ⟨_, rest, _, _, _, e⟩ <;> rw [e] at ht
  · cases ht; exact h
  · cases ht; exact State.afterReset_inv _
  · cases ht; exact taken rest
  · exact (taken rest).effect (effect_of_exec ht)
  · exact (taken rest).effect (effect_of_exec ht)
  · cases ht; exact (taken rest).latch_kept _ _

/-- Settles O15: every case of `Effect` keeps each unit's part of the invariant. -/
theorem everyStepKeepsTheInvariant : Obligations.EveryStepKeepsTheInvariant :=
  fun _ _ h ht => h.step ht

/-- Settles O14: the items of R34 that have a value meet the invariant. -/
theorem resetSatisfiesTheInvariant : Obligations.ResetSatisfiesTheInvariant := State.reset_inv

end Sys2Proof.Machine
end

section
/-! What no command writes: the rules R12, R15, R18, R30 and R36 as case analyses of `Effect`, and the
rules of one step and of reset (R14, R34, R290). -/

namespace Sys2Proof.Machine

open Sys2Proof Sys2Proof.Claims

variable {i : Instr} {s t : State}

/-! ## The register files (R11, R12, R30, R32) -/

/-- Settles O22, by the laws of reading `setX`. -/
theorem everyScalarRegisterHoldsWhatIsWritten : Obligations.EveryScalarRegisterHoldsWhatIsWritten :=
  fun s d _ v => ⟨s.getX_setX_same d v, fun h => s.getX_setX_ne v h.symm⟩

/-- A trellis step leaves both register files, the scratch and `RSEL`. -/
theorem State.trellisStep_registers (s : State) (dist : List Metric) :
    (s.trellisStep dist).x = s.x ∧ (s.trellisStep dist).p = s.p ∧
    (s.trellisStep dist).scr0 = s.scr0 ∧ (s.trellisStep dist).scr1 = s.scr1 ∧
    (s.trellisStep dist).rsel = s.rsel := by
  rw [s.trellisStep_frame dist]
  exact ⟨rfl, rfl, rfl, rfl, rfl⟩

theorem Effect.getX_of_ne (he : Effect i s t) {r : XReg} (hr : scalarDest i ≠ some r) :
    t.getX r = s.getX r := by
  have other {d : XReg} (hd : scalarDest i = some d) : d ≠ r := fun e => hr (e ▸ hd)
  cases he with
  | scalar v hd => exact s.getX_setX_ne v (other hd)
  | encoded bit v hd => exact State.getX_setX_ne _ v (other hd)
  | cleared => exact congrArg (Mem.get · r) s.x_clearLatch
  | stepped dist => exact congrArg (Mem.get · r) (s.trellisStep_registers dist).1
  | _ => rfl

/-- Settles O16: only the cases of `Effect` that name `scalarDest` write a scalar register. -/
theorem onlyTheNamedScalarRegisterIsWritten : Obligations.OnlyTheNamedScalarRegisterIsWritten :=
  fun _ _ _ _ h hr => (effect_of_exec h).getX_of_ne hr

theorem Effect.getP_of_ne (he : Effect i s t) {r : PReg} (hr : polyDest i ≠ some r) :
    t.getP r = s.getP r := by
  have other {d : PReg} (hd : polyDest i = some d) : d ≠ r := fun e => hr (e ▸ hd)
  cases he with
  | polynomial q hd => exact s.getP_setP_ne q (other hd)
  | roots q _ _ _ hi => exact s.getP_setP_ne q (other (by rw [hi]; rfl))
  | cleared => exact congrArg (Mem.get · r) s.p_clearLatch
  | stepped dist => exact congrArg (Mem.get · r) (s.trellisStep_registers dist).2.1
  | _ => rfl

theorem Effect.scratch_of_ne_roots (he : Effect i s t) (hi : ∀ d a, i ≠ .pRoots d a) :
    t.scr0 = s.scr0 ∧ t.scr1 = s.scr1 ∧ t.rsel = s.rsel := by
  cases he with
  | roots _ _ _ _ h => exact absurd h (hi _ _)
  | cleared => exact ⟨s.scr0_clearLatch, s.scr1_clearLatch, s.rsel_clearLatch⟩
  | stepped dist => exact (s.trellisStep_registers dist).2.2
  | _ => exact ⟨rfl, rfl, rfl⟩

/-- Settles O17: only the cases of `Effect` that name `polyDest` write a polynomial register, and only
`P.ROOTS` the scratch. -/
theorem onlyTheNamedPolynomialRegisterIsWritten :
    Obligations.OnlyTheNamedPolynomialRegisterIsWritten :=
  fun _ _ _ h =>
    ⟨fun _ hr => (effect_of_exec h).getP_of_ne hr, (effect_of_exec h).scratch_of_ne_roots⟩

/-! ## The field tables (R18) -/

/-- Once the tables are built no command writes them: `GF.BUILD` faults. -/
theorem Effect.tables_of_built (he : Effect i s t) (hv : s.fvalid = true) :
    t.fvalid = true ∧ t.prim = s.prim ∧ t.tab = s.tab := by
  cases he with
  | fieldBuilt h => exact absurd hv (by simp [h])
  | cleared => exact ⟨s.fvalid_clearLatch.trans hv, s.prim_clearLatch, s.tab_clearLatch⟩
  | stepped dist =>
    rw [s.trellisStep_frame dist]
    exact ⟨hv, rfl, rfl⟩
  | _ => exact ⟨hv, rfl, rfl⟩

/-- Settles O18: of the events only a reset, and of the commands only `GF.BUILD`, could write the
tables. -/
theorem builtTablesNeverChangeUntilReset : Obligations.BuiltTablesNeverChangeUntilReset := by
  intro s t hv hhead ht
  rcases step_cases s with ⟨_, e⟩ | ⟨rest, hh, _⟩ | ⟨_, rest, _, _, _, e⟩ | ⟨rest, _, _, e⟩ |
    ⟨_, rest, _, _, _, _, e⟩ | ⟨_, rest, _, _, _, e⟩
  · rw [e] at ht; cases ht; exact ⟨hv, rfl, rfl⟩
  · exact absurd (congrArg List.head? hh) hhead
  · rw [e] at ht; cases ht; exact ⟨hv, rfl, rfl⟩
  · rw [e] at ht; exact (effect_of_exec ht).tables_of_built hv
  · rw [e] at ht; exact (effect_of_exec ht).tables_of_built hv
  · rw [e] at ht; cases ht; exact ⟨hv, rfl, rfl⟩

/-! ## The overflow flag (R15, R166) -/

/-- A trellis step never clears `OVF`. -/
theorem State.ovf_trellisStep (dist : List Metric) (h : s.ovf = true) :
    (s.trellisStep dist).ovf = true := by
  have hphase : ({ s with dist := dist } : State).slicePhase.ovf = true := by
    rcases State.slicePhase_cases { s with dist := dist } with ⟨_, e⟩ | ⟨_, e⟩ <;> rw [e]
    · simp [State.warmUpSlice, h]
    · rw [(State.history_keeps _ _).2.2]
      simp [State.acsSlice, h]
  exact hphase

theorem Effect.ovf_kept (he : Effect i s t) (h : s.ovf = true) (hinit : i ≠ .vtInit)
    (hreset : ∀ a, i ≠ .vtReset a) : t.ovf = true := by
  cases he with
  | initialised hi => exact absurd hi hinit
  | started hi => exact absurd hi (hreset _)
  | stepped dist => exact State.ovf_trellisStep dist h
  | cleared => exact s.ovf_clearLatch.trans h
  | _ => exact h

theorem Effect.ovf_stays_clear (he : Effect i s t) (h : s.ovf = false) (hsoft : i ≠ .vtSteps)
    (hhard : ∀ a, i ≠ .vtSteph a) : t.ovf = false := by
  cases he with
  | stepped _ hi => exact absurd hi (not_or.mpr ⟨hsoft, not_exists.mpr hhard⟩)
  | cleared => exact s.ovf_clearLatch.trans h
  | initialised | started => rfl
  | _ => exact h

/-- Settles O19: `VT.INIT`, `VT.RESET` and the trellis steps are the cases of `Effect` that write `OVF`. -/
theorem overflowFlagIsSticky : Obligations.OverflowFlagIsSticky :=
  fun _ _ _ h => ⟨(effect_of_exec h).ovf_kept, (effect_of_exec h).ovf_stays_clear⟩

/-! ## The lifecycle (R36, R171, R173) -/

theorem Effect.vstate_of_other (he : Effect i s t) (hcfg : ∀ a b, i ≠ .vtCfg a b)
    (hinit : i ≠ .vtInit) : t.vstate = s.vstate := by
  cases he with
  | configured hi => exact absurd hi (hcfg _ _)
  | initialised hi => exact absurd hi hinit
  | cleared => exact s.vstate_clearLatch
  | stepped dist => rw [s.trellisStep_frame dist]
  | _ => rfl

theorem nextLifecycle_of_other (s : State) (hcfg : ∀ a b, i ≠ .vtCfg a b) (hinit : i ≠ .vtInit) :
    nextLifecycle s i = s.vstate := by
  unfold nextLifecycle
  split
  · exact absurd rfl (hcfg _ _)
  · exact absurd rfl hinit
  · rfl

/-- `VT.CFG` ends in `CONFIGURED` where it completes, and else leaves `VSTATE` (R171). -/
theorem exec_vtCfg_lifecycle (a b : XReg) (s : State) :
    ∃ t, exec (.vtCfg a b) s = .next t ∧ t.vstate = nextLifecycle s (.vtCfg a b) := by
  have arm : exec (.vtCfg a b) s = execVtCfg a b s := rfl
  rw [arm, execVtCfg]
  rcases attempt_cases (.vtCfg a b) s _ _ with ⟨c, hc, e⟩ | ⟨hn, e⟩ <;> refine ⟨_, e, ?_⟩
  · refine (if_neg fun hrange => ?_).symm
    rw [vtCfg_completes.mpr (by omega)] at hc
    cases hc
  · exact (if_pos (by have := vtCfg_completes.mp hn; omega)).symm

/-- `VT.INIT` ends in `READY` in a configured block, and else leaves `VSTATE` (R173). -/
theorem exec_vtInit_lifecycle (s : State) :
    ∃ t, exec .vtInit s = .next t ∧ t.vstate = nextLifecycle s .vtInit := by
  have arm : exec .vtInit s = execVtInit s := rfl
  rw [arm, execVtInit]
  by_cases h : s.vstate = .unconf
  · exact ⟨_, attempt_of_some (c := .sequence) (by simp [noCode, h]), by simp [nextLifecycle, h]⟩
  · exact ⟨_, attempt_of_none (by simp [noCode, h]), by simp [nextLifecycle, h]⟩

/-- Settles O20: `VT.CFG` and `VT.INIT` by their conditions, every other command by `Effect`. -/
theorem onlyCfgAndInitChangeTheLifecycle : Obligations.OnlyCfgAndInitChangeTheLifecycle := by
  intro i s
  by_cases hcfg : ∃ a b, i = .vtCfg a b
  · obtain ⟨a, b, rfl⟩ := hcfg
    exact exec_vtCfg_lifecycle a b s
  by_cases hinit : i = .vtInit
  · rw [hinit]
    exact exec_vtInit_lifecycle s
  have hother : ∀ a b, i ≠ .vtCfg a b := fun a b e => hcfg ⟨a, b, e⟩
  obtain ⟨t, ht⟩ := exec_total i s
  refine ⟨t, ht, ?_⟩
  rw [nextLifecycle_of_other s hother hinit]
  exact (effect_of_exec ht).vstate_of_other hother hinit

/-! ## One step, and reset (R14, R34, R58, R290) -/

/-- With no fault latched a word that decodes is run in the state with the word taken. -/
theorem step_of_decoded {w : Word} {rest : List HostEvent} (hh : s.host = .command w :: rest)
    (hf : s.fault = false) (hd : decode w = some i) : step s = exec i { s with host := rest } := by
  simp only [step, State.nextEvent, hh, presentWord, hf, hd, Bool.false_eq_true, if_false]

/-- Settles O5: with no fault latched the step is the run of the decoded command. -/
theorem stepRunsTheDecodedCommand : Obligations.StepRunsTheDecodedCommand :=
  fun _ _ _ _ => step_of_decoded

theorem step_of_reset {rest : List HostEvent} (hh : s.host = .reset :: rest) :
    step s = .next ({ s with host := rest } : State).afterReset := by
  simp only [step, State.nextEvent, hh]

/-- R34's table rests on these fields alone; `POLY` and `SYM` are memories of zeros. -/
theorem resetTable_reset : ResetTable State.reset := by
  simp only [ResetTable]
  refine ⟨rfl, rfl, rfl, rfl, rfl, rfl, rfl, rfl, fun j hj => Mem.read_fill 0 hj, rfl,
    fun j hj => Mem.read_fill 0 hj, ?_⟩
  exact ⟨rfl, rfl, rfl, rfl, rfl, rfl, rfl, rfl, rfl, rfl, rfl, rfl, rfl⟩

theorem resetTable_afterReset (s : State) : ResetTable s.afterReset := resetTable_reset

/-- Settles O8: a reset event writes the fields of R34's table as the state after reset has them. -/
theorem resetLeavesTheTableOfResetValues : Obligations.ResetLeavesTheTableOfResetValues :=
  ⟨resetTable_reset, fun _ _ hh => ⟨_, step_of_reset hh, resetTable_afterReset _, rfl⟩⟩

end Sys2Proof.Machine
end

section
/-! What the host sees: the bits of `STATUS` (R16) and the numbers of the read port (R29). -/

namespace Sys2Proof.Machine

open Sys2Proof Sys2Proof.Claims

/-! ## `STATUS` (R16) -/

/-- Appending `n` bits below a number. -/
theorem toNat_append_eq {m n : Nat} (x : BitVec m) (y : BitVec n) :
    (x ++ y).toNat = 2 ^ n * x.toNat + y.toNat := by
  rw [BitVec.toNat_append, Nat.shiftLeft_eq, Nat.mul_comm, Nat.two_pow_add_eq_or_of_lt y.isLt]

/-- `STATUS` as a number: each item at its place. -/
theorem State.toNat_status (s : State) :
    s.status.toNat = 256 * s.cause.toNat + 128 * s.pmsel.toNat + 64 * s.rsel.toNat +
      32 * s.softmode.toNat + 8 * s.vstate.number.toNat + 4 * s.fvalid.toNat + 2 * s.ovf.toNat +
      s.fault.toNat := by
  simp only [State.status, toNat_append_eq, bit1, BitVec.toNat_ofBool, BitVec.toNat_ofNat]
  omega

/-- Bit `k` of `STATUS`, as a digit of the number. -/
theorem State.getLsbD_status (s : State) (k : Nat) :
    s.status.getLsbD k = decide (s.status.toNat / 2 ^ k % 2 = 1) := by
  rw [← BitVec.testBit_toNat, Nat.testBit_eq_decide_div_mod_eq]

/-- A flag that is a digit. -/
theorem decide_eq_flag {n : Nat} {b : Bool} (h : n = b.toNat) : decide (n = 1) = b := by
  cases b <;> simp [h]

/-- Settles O12: the items do not overlap, so each is a group of digits of the number. -/
theorem statusAssemblesTheFlagsAndTheCause : Obligations.StatusAssemblesTheFlagsAndTheCause := by
  intro s
  have hpmsel := s.pmsel.toNat_lt
  have hrsel := s.rsel.toNat_lt
  have hsoftmode := s.softmode.toNat_lt
  have hfvalid := s.fvalid.toNat_lt
  have hovf := s.ovf.toNat_lt
  have hfault := s.fault.toNat_lt
  have hnumber : s.vstate.number.toNat < 4 := s.vstate.number.isLt
  simp only [State.getLsbD_status, State.toNat_status]
  refine ⟨decide_eq_flag ?_, decide_eq_flag ?_, decide_eq_flag ?_, ?_, decide_eq_flag ?_,
    decide_eq_flag ?_, decide_eq_flag ?_, ?_⟩
  case refine_4 =>
    refine (?_ : _ = s.vstate.number.toNat).trans (by cases s.vstate <;> rfl)
    omega
  all_goals omega

/-! ## The read port (R29) -/

variable {s : State} {n k : Nat}

theorem State.hostRead_scalar (s : State) (i : XReg) : s.hostRead i = s.getX i := by
  rw [State.hostRead, dif_pos i.isLt]

theorem State.hostRead_register (s : State) (h : 0x010 ≤ n ∧ n < 0x020) :
    s.hostRead n = s.hostRegister n := by
  rw [State.hostRead, dif_neg (by omega), if_pos h.2]

theorem State.hostRead_poly (s : State) (h : k < 8) : s.hostRead (0x020 + k) = s.poly.read k := by
  rw [State.hostRead, dif_neg (by omega), if_neg (by omega), if_pos (by omega),
    Nat.add_sub_cancel_left]

theorem State.hostRead_sym (s : State) (h : k < 8) :
    s.hostRead (0x028 + k) = (s.sym.read k).setWidth 32 := by
  rw [State.hostRead, dif_neg (by omega), if_neg (by omega), if_neg (by omega), if_pos (by omega),
    Nat.add_sub_cancel_left]

theorem State.hostRead_ord (s : State) (i : PReg) :
    s.hostRead (0x100 + i) = (s.getP i).ord.setWidth 32 := by
  have hi := i.isLt
  have hp : (⟨0x100 + i - 0x100, by omega⟩ : PReg) = i := Fin.ext (Nat.add_sub_cancel_left ..)
  rw [State.hostRead, dif_neg (by omega), if_neg (by omega), if_neg (by omega), if_neg (by omega),
    dif_pos (by omega), hp]

/-- From the first coefficient on, the port number is in one of the last four ranges. -/
theorem State.hostRead_high (s : State) (h : 0x110 ≤ n) : s.hostRead n =
    if 0x1000 ≤ n ∧ n < 0x2000 then (s.hostCoef (n - 0x1000)).setWidth 32
    else if 0x3000 ≤ n ∧ n < 0x3200 then (s.tab.exp.read (n - 0x3000)).setWidth 32
    else if 0x3200 ≤ n ∧ n < 0x3300 then (s.tab.log.read (n - 0x3200)).setWidth 32
    else if 0x4000 ≤ n then (bit1 (s.outq.getD (n - 0x4000) false)).setWidth 32
    else 0 := by
  rw [State.hostRead, dif_neg (by omega), if_neg (by omega), if_neg (by omega), if_neg (by omega),
    dif_neg (by omega)]

theorem State.hostCoef_eq (s : State) (i : PReg) (h : k < 256) :
    s.hostCoef (256 * i + k) = (s.getP i).c.read k := by
  have hi := i.isLt
  have hdiv : (256 * (i : Nat) + k) / 256 = i := by omega
  have hmod : (256 * (i : Nat) + k) % 256 = k := by omega
  have hp : (⟨(256 * (i : Nat) + k) / 256, by omega⟩ : PReg) = i := Fin.ext hdiv
  rw [State.hostCoef, dif_pos (by omega), hp, hmod]
  rfl

theorem State.hostRead_coef (s : State) (i : PReg) (h : k < 256) :
    s.hostRead (0x1000 + 256 * i + k) = ((s.getP i).c.read k).setWidth 32 := by
  have hi := i.isLt
  rw [s.hostRead_high (by omega), if_pos (by omega), Nat.add_assoc, Nat.add_sub_cancel_left,
    s.hostCoef_eq i h]

theorem State.hostRead_exp (s : State) (h : k < 512) :
    s.hostRead (0x3000 + k) = (s.tab.exp.read k).setWidth 32 := by
  rw [s.hostRead_high (by omega), if_neg (by omega), if_pos (by omega), Nat.add_sub_cancel_left]

theorem State.hostRead_log (s : State) (h : k < 256) :
    s.hostRead (0x3200 + k) = (s.tab.log.read k).setWidth 32 := by
  rw [s.hostRead_high (by omega), if_neg (by omega), if_neg (by omega), if_pos (by omega),
    Nat.add_sub_cancel_left]

theorem State.hostRead_queue (s : State) (k : Nat) :
    s.hostRead (0x4000 + k) = (bit1 (s.outq.getD k false)).setWidth 32 := by
  rw [s.hostRead_high (by omega), if_neg (by omega), if_neg (by omega), if_neg (by omega),
    if_pos (by omega), Nat.add_sub_cancel_left]

/-- A flag read through the port is 1 or 0. -/
theorem setWidth_bit1 (b : Bool) : (bit1 b).setWidth 32 = if b then 1 else 0 := by
  cases b <;> rfl

/-- A number that R29's table does not give reads 0, the numbers after the end of `OUTQ` among them. -/
theorem State.hostRead_elsewhere (s : State)
    (h : 0x030 ≤ n ∧ n < 0x100 ∨ 0x110 ≤ n ∧ n < 0x1000 ∨ 0x2000 ≤ n ∧ n < 0x3000 ∨
      0x3300 ≤ n ∧ n < 0x4000 ∨ 0x4000 + s.outq.length ≤ n) : s.hostRead n = 0 := by
  by_cases hlow : n < 0x110
  · rw [State.hostRead, dif_neg (by omega), if_neg (by omega), if_neg (by omega), if_neg (by omega),
      dif_neg (by omega), if_neg (by omega), if_neg (by omega), if_neg (by omega), if_neg (by omega)]
  by_cases hqueue : 0x4000 ≤ n
  · obtain ⟨k, rfl⟩ := Nat.exists_eq_add_of_le hqueue
    rw [s.hostRead_queue, List.getD_eq_default _ _ (by omega)]
    rfl
  · rw [s.hostRead_high (by omega), if_neg (by omega), if_neg (by omega), if_neg (by omega),
      if_neg hqueue]

/-- Settles O13: the sixteen control and status registers, then one range of the port after the other. -/
theorem hostReadPortShowsTheItemsOfItsTable : Obligations.HostReadPortShowsTheItemsOfItsTable := by
  intro s
  have register (n : Nat) (h : 0x010 ≤ n ∧ n < 0x020 := by omega) := s.hostRead_register h
  refine ⟨s.hostRead_scalar, register 0x010, register 0x011, register 0x012, register 0x013,
    register 0x014, register 0x015, register 0x016, register 0x017, register 0x018, register 0x019,
    register 0x01A, register 0x01B, register 0x01C, register 0x01D, register 0x01E, register 0x01F,
    fun _ => s.hostRead_poly, fun _ => s.hostRead_sym, s.hostRead_ord, fun i _ => s.hostRead_coef i,
    fun _ => s.hostRead_exp, fun _ => s.hostRead_log, fun k hk => ?_, fun _ => s.hostRead_elsewhere⟩
  rw [s.hostRead_queue, setWidth_bit1, List.getD_eq_getElem _ _ hk]

end Sys2Proof.Machine
end

section
/-! The tables of a polynomial that `GF.BUILD` accepts (R91 to R95): `EXP` lists the powers of alpha with
period 255, `LOG` is its inverse on the non-zero elements, and 1 is neutral for `gf_mul`. -/

namespace Sys2Proof.Machine

open Sys2Proof

/-! ## Powers of alpha (R91) -/

/-- The power `k` of alpha, by repeated `xtime`. -/
def alphaPow (prim : BitVec 9) (k : Nat) : Byte := (xtime prim)^[k] 1

theorem getD_powersFrom (prim : BitVec 9) {n k : Nat} (e : Byte) (h : k < n) :
    (powersFrom prim n e).getD k 0 = (xtime prim)^[k] e := by
  induction n generalizing k e with
  | zero => omega
  | succ n ih =>
    cases k with
    | zero => rfl
    | succ k => exact ih (xtime prim e) (by omega)

/-- `EXP[k]` is the power `k` of alpha (R91, R94). -/
theorem read_buildExp (prim : BitVec 9) {k : Nat} (h : k < 512) :
    (buildExp prim).read k = alphaPow prim k :=
  getD_powersFrom prim 1 h

theorem alphaPow_add (prim : BitVec 9) (i j : Nat) :
    alphaPow prim (i + j) = (xtime prim)^[i] (alphaPow prim j) :=
  Function.iterate_add_apply _ i j 1

theorem xtime_zero (prim : BitVec 9) : xtime prim 0 = 0 := by
  simp [xtime]

/-! ## The powers under an accepted polynomial (R95) -/

section Accepted

variable {prim : BitVec 9} (hv : validPowers (buildExp prim) = true)

include hv

theorem alphaPow_255 : alphaPow prim 255 = 1 := by
  rw [validPowers, Bool.and_eq_true] at hv
  rw [← read_buildExp prim (by omega)]
  exact BitVec.eq_of_toNat_eq (beq_iff_eq.mp hv.2)

theorem alphaPow_ne_one {i : Nat} (h1 : 1 ≤ i) (h2 : i ≤ 254) : alphaPow prim i ≠ 1 := by
  rw [validPowers, Bool.and_eq_true, List.all_eq_true] at hv
  have hi := hv.1 i (by rw [List.mem_range'_1]; omega)
  rw [← read_buildExp prim (by omega)]
  exact fun e => bne_iff_ne.mp hi (congrArg BitVec.toNat e)

/-- The powers have period 255. -/
theorem alphaPow_add_255 (i : Nat) : alphaPow prim (i + 255) = alphaPow prim i := by
  rw [alphaPow_add, alphaPow_255 hv]
  rfl

/-- No power is 0: from 0 on every power would be 0, and the power 255 is 1. -/
theorem alphaPow_ne_zero {i : Nat} (h : i ≤ 255) : alphaPow prim i ≠ 0 := by
  intro h0
  have h255 := alphaPow_255 hv
  rw [← Nat.sub_add_cancel h, alphaPow_add, h0, Function.iterate_fixed (xtime_zero prim)] at h255
  exact absurd h255 (by decide)

/-- The powers 1..255 are pairwise distinct: two equal ones would make an earlier power 1. -/
theorem alphaPow_injOn {i j : Nat} (hi : 1 ≤ i) (hj : j ≤ 255) (hij : i < j) :
    alphaPow prim i ≠ alphaPow prim j := by
  intro e
  refine alphaPow_ne_one hv (i := (255 - j) + i) (by omega) (by omega) ?_
  rw [alphaPow_add, e, ← alphaPow_add, Nat.sub_add_cancel hj, alphaPow_255 hv]

theorem alphaPow_inj {i j : Nat} (hi : 1 ≤ i ∧ i ≤ 255) (hj : 1 ≤ j ∧ j ≤ 255)
    (e : alphaPow prim i = alphaPow prim j) : i = j := by
  rcases Nat.lt_trichotomy i j with h | h | h
  · exact absurd e (alphaPow_injOn hv hi.1 hj.2 h)
  · exact h
  · exact absurd e.symm (alphaPow_injOn hv hj.1 hi.2 h)

/-- Every non-zero element is a power of alpha: 255 distinct powers among 255 non-zero elements. -/
theorem exists_alphaPow {v : Byte} (h : v ≠ 0) : ∃ i, (1 ≤ i ∧ i ≤ 255) ∧ alphaPow prim i = v := by
  have hmaps : ∀ i ∈ Finset.Icc 1 255, (alphaPow prim i).toNat ∈ Finset.Icc 1 255 := by
    intro i hi
    have hlt := (alphaPow prim i).isLt
    have hne : (alphaPow prim i).toNat ≠ 0 :=
      fun e => alphaPow_ne_zero hv (Finset.mem_Icc.mp hi).2 (BitVec.eq_of_toNat_eq e)
    rw [Finset.mem_Icc]
    omega
  have hinj : Set.InjOn (fun i => (alphaPow prim i).toNat) (Finset.Icc 1 255 : Finset Nat) :=
    fun i hi j hj e => alphaPow_inj hv (Finset.mem_Icc.mp hi) (Finset.mem_Icc.mp hj)
      (BitVec.eq_of_toNat_eq e)
  have hmem : v.toNat ∈ Finset.Icc 1 255 := by
    have hlt := v.isLt
    have hne : v.toNat ≠ 0 := fun e => h (BitVec.eq_of_toNat_eq e)
    rw [Finset.mem_Icc]
    omega
  obtain ⟨i, hi, e⟩ := Finset.surjOn_of_injOn_of_card_le _ hmaps hinj le_rfl hmem
  exact ⟨i, Finset.mem_Icc.mp hi, BitVec.eq_of_toNat_eq e⟩

end Accepted

/-! ## `LOG` (R92, R93) -/

/-- The loop of R92 over the powers 1..m. -/
def logLoop (t : Mem Byte 512) (m : Nat) : Mem Byte 256 :=
  forRange 1 m (Mem.fill 256 0) fun l i => l.write (t.read i).toNat (BitVec.ofNat 8 i)

/-- A loop from 1 to `k + 1` runs once more. -/
theorem forRange_one_succ {σ : Type} (k : Nat) (init : σ) (f : σ → Nat → σ) :
    forRange 1 (k + 1) init f = f (forRange 1 k init f) (k + 1) := by
  simp only [forRange, Nat.add_sub_cancel]
  rw [List.range'_1_concat, List.foldl_append, Nat.add_comm 1 k]
  rfl

section Accepted

variable {prim : BitVec 9} (hv : validPowers (buildExp prim) = true)

include hv

theorem read_logLoop {m : Nat} (hm : m ≤ 255) {i : Nat} (hi : 1 ≤ i ∧ i ≤ m) :
    (logLoop (buildExp prim) m).read (alphaPow prim i).toNat = BitVec.ofNat 8 i := by
  induction m with
  | zero => omega
  | succ m ih =>
    have hlt : (alphaPow prim (m + 1)).toNat < 256 := BitVec.isLt _
    rw [logLoop, forRange_one_succ, read_buildExp prim (by omega), Mem.read_write _ _ _ _ hlt]
    split
    next e =>
      rw [alphaPow_inj hv (by omega) (by omega) (BitVec.eq_of_toNat_eq e)]
    next e =>
      have hne : i ≠ m + 1 := fun h => e (by rw [h])
      exact ih (by omega) (by omega)

/-- `LOG` of the power `i` of alpha is `i`, for `i` in 1..255; `LOG[1]` is 255 (R92). -/
theorem logAt_alphaPow {i : Nat} (hi : 1 ≤ i ∧ i ≤ 255) :
    ((buildTables prim).logAt (alphaPow prim i)).toNat = i := by
  have hne : 0 ≠ (alphaPow prim i).toNat :=
    fun e => alphaPow_ne_zero hv hi.2 (BitVec.eq_of_toNat_eq e.symm)
  have hlog : (buildTables prim).logAt (alphaPow prim i) = BitVec.ofNat 8 i :=
    (Mem.read_write_ne _ _ hne).trans (read_logLoop hv le_rfl hi)
  rw [hlog]
  exact Nat.mod_eq_of_lt (by omega)

/-- A non-zero element is the power of alpha that `LOG` names, an exponent in 1..255. -/
theorem alphaPow_logAt {v : Byte} (h : v ≠ 0) :
    alphaPow prim ((buildTables prim).logAt v).toNat = v ∧
    1 ≤ ((buildTables prim).logAt v).toNat ∧ ((buildTables prim).logAt v).toNat ≤ 255 := by
  obtain ⟨i, hi, rfl⟩ := exists_alphaPow hv h
  rw [logAt_alphaPow hv hi]
  exact ⟨rfl, hi⟩

theorem logAt_one : ((buildTables prim).logAt 1).toNat = 255 := by
  rw [← alphaPow_255 hv]
  exact logAt_alphaPow hv (by omega)

end Accepted

/-! ## `gf_mul` (R96) -/

@[simp] theorem gfMul_zero (t : Tables) (a : Byte) : gfMul t a 0 = 0 := by simp [gfMul]

theorem gfMul_comm (t : Tables) (a b : Byte) : gfMul t a b = gfMul t b a := by
  simp only [gfMul, or_comm, Nat.add_comm]

/-- 1 is neutral for `gf_mul` in the tables of an accepted polynomial: its logarithm is the period. -/
theorem one_gfMul {prim : BitVec 9} (hv : validPowers (buildExp prim) = true) (b : Byte) :
    gfMul (buildTables prim) 1 b = b := by
  by_cases hb : b = 0
  · rw [hb, gfMul_zero]
  obtain ⟨hpow, _, hle⟩ := alphaPow_logAt hv hb
  have hexp : (buildTables prim).expAt (((buildTables prim).logAt b).toNat + 255) = b :=
    calc (buildTables prim).expAt (((buildTables prim).logAt b).toNat + 255)
        = alphaPow prim (((buildTables prim).logAt b).toNat + 255) := read_buildExp prim (by omega)
      _ = alphaPow prim ((buildTables prim).logAt b).toNat := alphaPow_add_255 hv _
      _ = b := hpow
  rw [gfMul, if_neg (not_or.mpr ⟨by decide, hb⟩), logAt_one hv, Nat.add_comm, hexp]

/-- Built tables are those of a polynomial whose powers `GF.BUILD` accepted (R94, R95). -/
theorem State.FieldOk.validPowers_prim {s : State} (h : s.FieldOk) (hv : s.fvalid = true) :
    validPowers (buildExp s.prim) = true := by
  have hp := h.accepted hv
  simp only [primRefused, not_or, Bool.not_eq_false] at hp
  simpa using hp.2.2

end Sys2Proof.Machine
end

section
/-! `P.ROOTS` (R137): each turn of its loop multiplies the polynomial built so far by one linear factor,
into the other scratch buffer. -/

namespace Sys2Proof.Machine

open Sys2Proof Sys2Proof.Claims

/-! ## Accumulating into a polynomial register (R128) -/

theorem byte_xor_zero (b : Byte) : b ^^^ 0 = b := BitVec.xor_zero

theorem byte_zero_xor (b : Byte) : 0 ^^^ b = b := BitVec.zero_xor

/-- The inner loop of R128: `c[i + j] <- c[i + j] xor g j` for `j` in 0..m. -/
def accumulate (q : PolyReg) (i m : Nat) (g : Nat → Byte) : PolyReg :=
  forUpTo m q fun q j => q.withCoef (i + j) (q.coef (i + j) ^^^ g j)

@[simp] theorem ord_accumulate (q : PolyReg) (i m : Nat) (g : Nat → Byte) :
    (accumulate q i m g).ord = q.ord :=
  forUpTo_induct (fun q' => q'.ord = q.ord) m q
    (fun q j => q.withCoef (i + j) (q.coef (i + j) ^^^ g j)) rfl fun _ _ _ h => h

/-- The inner loop of R128 adds `g j` to coefficient `i + j`, and leaves the others. -/
theorem coef_accumulate (q : PolyReg) {i m : Nat} (g : Nat → Byte) (k : Nat) (h : i + m < 256) :
    (accumulate q i m g).coef k = q.coef k ^^^ if i ≤ k ∧ k ≤ i + m then g (k - i) else 0 := by
  induction m with
  | zero =>
    rw [accumulate, forUpTo_zero, PolyReg.coef_withCoef _ _ _ h, Nat.add_zero]
    by_cases hk : i = k
    · subst hk; simp
    · rw [if_neg hk, if_neg (by omega), byte_xor_zero]
  | succ m ih =>
    have hstep : accumulate q i (m + 1) g = (accumulate q i m g).withCoef (i + (m + 1))
        ((accumulate q i m g).coef (i + (m + 1)) ^^^ g (m + 1)) := forUpTo_succ m q _
    rw [hstep, PolyReg.coef_withCoef _ _ _ h]
    by_cases hk : i + (m + 1) = k
    · subst hk
      rw [if_pos rfl, ih (by omega), if_neg (by omega), if_pos (by omega), byte_xor_zero,
        Nat.add_sub_cancel_left]
    · rw [if_neg hk, ih (by omega)]
      by_cases hin : i ≤ k ∧ k ≤ i + m
      · rw [if_pos hin, if_pos (by omega)]
      · rw [if_neg hin, if_neg (by omega)]

/-! ## One linear factor -/

@[simp] theorem deg_linearFactor (root : Byte) : (linearFactor root).deg = 1 := rfl

@[simp] theorem coef_linearFactor_zero (root : Byte) : (linearFactor root).coef 0 = root := by
  rw [linearFactor, PolyReg.coef_withCoef _ _ _ (by omega), PolyReg.coef_withCoef _ _ _ (by omega)]
  rfl

@[simp] theorem coef_linearFactor_one (root : Byte) : (linearFactor root).coef 1 = 1 := by
  rw [linearFactor, PolyReg.coef_withCoef _ _ _ (by omega), if_pos rfl]

/-- The product of R128 with a linear factor is two turns of the outer loop. -/
theorem polyMul_linearFactor (t : Tables) (root : Byte) (q dst : PolyReg) {n : Nat} (hq : q.deg + 1 = n) :
    polyMul t (linearFactor root) q n dst =
      accumulate (accumulate (dst.withCoefs n fun _ => 0) 0 q.deg fun j => gfMul t root (q.coef j))
        1 q.deg fun j => gfMul t 1 (q.coef j) := by
  have h0 : min q.deg (n - 0) = q.deg := by omega
  have h1 : min q.deg (n - 1) = q.deg := by omega
  rw [polyMul, deg_linearFactor, forUpTo_succ, forUpTo_zero, if_pos (by omega), if_pos (Nat.zero_le _),
    coef_linearFactor_zero, coef_linearFactor_one, h0, h1]
  rfl

section Product

variable {t : Tables} (hone : ∀ b, gfMul t 1 b = b) (roots : PolyReg)

/-- The product of `n` linear factors has order `n`: above it the coefficients are 0. -/
theorem monicProduct_above {n k : Nat} (h : n < k) : monicProduct t roots n k = 0 := by
  induction n generalizing k with
  | zero => exact if_neg (by omega)
  | succ n ih =>
    rw [monicProduct, if_neg (by omega), ih (by omega), ih (by omega), gfMul_zero, byte_xor_zero]

/-- The product of linear factors is monic. -/
theorem monicProduct_leading (n : Nat) : monicProduct t roots n n = 1 := by
  induction n with
  | zero => rfl
  | succ n ih =>
    rw [monicProduct, if_neg (by omega), Nat.add_sub_cancel, ih,
      monicProduct_above roots (Nat.lt_succ_self n), gfMul_zero, byte_xor_zero]

/-- `q` holds the product of the first `n` linear factors, with its order. -/
structure HoldsProduct (t : Tables) (roots : PolyReg) (n : Nat) (q : PolyReg) : Prop where
  deg : q.deg = n
  coef : ∀ k ≤ n, q.coef k = monicProduct t roots n k

theorem deg_withOrd (q : PolyReg) {n : Nat} (h : n < 256) : (q.withOrd n).deg = n :=
  Nat.mod_eq_of_lt h

include hone in
/-- The first factor is written as it is. -/
theorem HoldsProduct.first (b : Scratch) :
    HoldsProduct t roots 1 (rootsStart (roots.coef 0) b).current := by
  have hone' : gfMul t (roots.coef 0) 1 = roots.coef 0 := by rw [gfMul_comm, hone]
  refine ⟨rfl, fun k hk => ?_⟩
  have hcoef : (rootsStart (roots.coef 0) b).current.coef k =
      if 0 = k then roots.coef 0 else if 1 = k then 1 else b.buf0.coef k := by
    simp only [rootsStart, Scratch.current, pick, Bool.false_eq_true, if_false]
    rw [PolyReg.coef_withCoef _ _ _ (by omega), PolyReg.coef_withCoef _ _ _ (by omega),
      PolyReg.coef_withOrd]
  rw [hcoef]
  match k, hk with
  | 0, _ =>
    have hprod : monicProduct t roots 1 0 = 0 ^^^ gfMul t (roots.coef 0) 1 := rfl
    rw [hprod, hone', byte_zero_xor, if_pos rfl]
  | 1, _ => rw [monicProduct_leading, if_neg (by omega), if_pos rfl]

include hone in
/-- The product with one more linear factor. -/
theorem HoldsProduct.next {n : Nat} {q : PolyReg} (h : HoldsProduct t roots n q) (hn : n + 1 < 256)
    (dst : PolyReg) :
    HoldsProduct t roots (n + 1)
      (polyMul t (linearFactor (roots.coef n)) q (n + 1) (dst.withOrd (n + 1))) := by
  rw [polyMul_linearFactor t _ q _ (congrArg (· + 1) h.deg), h.deg]
  constructor
  case deg =>
    rw [PolyReg.deg, ord_accumulate, ord_accumulate, PolyReg.ord_withCoefs]
    exact deg_withOrd dst hn
  case coef =>
    intro k hk
    have hbelow : (if 0 ≤ k ∧ k ≤ 0 + n then gfMul t (roots.coef n) (q.coef (k - 0)) else 0) =
        gfMul t (roots.coef n) (monicProduct t roots n k) := by
      by_cases hkn : k ≤ n
      · rw [if_pos (by omega), Nat.sub_zero, h.coef k hkn]
      · rw [if_neg (by omega), monicProduct_above roots (by omega), gfMul_zero]
    have hshift : (if 1 ≤ k ∧ k ≤ 1 + n then gfMul t 1 (q.coef (k - 1)) else 0) =
        if k = 0 then 0 else monicProduct t roots n (k - 1) := by
      by_cases hk0 : k = 0
      · rw [if_pos hk0, if_neg (by omega)]
      · rw [if_neg hk0, if_pos (by omega), hone, h.coef _ (by omega)]
    rw [coef_accumulate _ _ _ (by omega), coef_accumulate _ _ _ (by omega),
      PolyReg.coef_withCoefs _ _ _ (by omega), if_pos hk, hbelow, hshift, byte_zero_xor,
      BitVec.xor_comm]
    rfl

/-! ## The loop -/

/-- The buffer that `SCR[sel]` is not. -/
def Scratch.other (b : Scratch) : PolyReg := pick b.sel b.buf1 b.buf0

/-- What the scratch holds when the loop has multiplied `n` factors, having started from `b0`. -/
structure RootsDone (t : Tables) (roots : PolyReg) (b0 : Scratch) (n : Nat) (b : Scratch) : Prop where
  product : HoldsProduct t roots n b.current
  sel : b.sel = decide ((n - 1) % 2 = 1)
  previous : 2 ≤ n → HoldsProduct t roots (n - 1) b.other
  untouched : n = 1 → b.buf1 = b0.buf1

theorem Scratch.current_put (b : Scratch) (q : PolyReg) : (b.put q).current = q := by
  unfold Scratch.put Scratch.current pick; cases b.sel <;> rfl

theorem Scratch.other_put (b : Scratch) (q : PolyReg) : (b.put q).other = b.other := by
  unfold Scratch.put Scratch.other pick; cases b.sel <;> rfl

theorem Scratch.sel_put (b : Scratch) (q : PolyReg) : (b.put q).sel = b.sel := by
  unfold Scratch.put; cases b.sel <;> rfl

/-- Flipping `sel` makes the buffer just filled the other one. -/
theorem Scratch.other_flip (b : Scratch) : ({ b with sel := !b.sel } : Scratch).other = b.current := by
  unfold Scratch.other Scratch.current pick; cases b.sel <;> rfl

include hone in
theorem RootsDone.next {b0 b : Scratch} {n : Nat} (h : RootsDone t roots b0 n b) (h1 : 1 ≤ n)
    (hn : n + 1 < 256) : RootsDone t roots b0 (n + 1) (rootsStep t roots b n) where
  product := by
    rw [rootsStep, Scratch.current_put]
    exact h.product.next hone roots hn _
  sel := by
    rw [rootsStep, Scratch.sel_put, h.sel, ← decide_not]
    exact decide_eq_decide.mpr (by omega)
  previous := fun _ => by
    rw [rootsStep, Scratch.other_put, Scratch.other_flip]
    exact h.product
  untouched := by omega

include hone in
/-- R137's loop over `n + 1` roots leaves the product of all of them. -/
theorem rootsDone_loop (b : Scratch) {n : Nat} (hn : n + 1 < 256) :
    RootsDone t roots b (n + 1) (forRange 1 n (rootsStart (roots.coef 0) b) (rootsStep t roots)) := by
  induction n with
  | zero =>
    exact
      { product := HoldsProduct.first hone roots b
        sel := rfl
        previous := by omega
        untouched := fun _ => rfl }
  | succ n ih =>
    rw [forRange_one_succ]
    exact (ih (by omega)).next hone roots (by omega) (by omega)

end Product

/-- The buffer that `SCR[sel]` is, chosen by what `sel` decides. -/
theorem Scratch.current_eq_ite {b : Scratch} {p : Prop} [Decidable p] (h : b.sel = decide p) :
    b.current = if p then b.buf1 else b.buf0 := by
  simp [Scratch.current, pick, h]

theorem Scratch.other_eq_ite {b : Scratch} {p : Prop} [Decidable p] (h : b.sel = decide p) :
    b.other = if p then b.buf0 else b.buf1 := by
  simp [Scratch.other, pick, h]

/-- Where none of its conditions holds `P.ROOTS` has its effect (R137, R139). -/
theorem exec_pRoots_completes {d a : PReg} {s : State} (hvalid : s.fvalid = true) (hne : d ≠ a)
    (hdeg : (s.getP a).deg < 255) :
    let n := (s.getP a).deg + 1
    let b := rootsLoop s.tab (s.getP a) { buf0 := s.scr0, buf1 := s.scr1, sel := false }
    exec (.pRoots d a) s = .next { s.setP d (((s.getP d).withOrd n).withCoefs n b.current.coef) with
      scr0 := b.buf0, scr1 := b.buf1, rsel := b.sel } := by
  have arm : exec (.pRoots d a) s = execPRoots d a s := rfl
  have hpass : firstCause [noField s, noAlias d a, raises .capacity (255 < (s.getP a).deg + 1)] = none := by
    simp only [firstCause_eq_none, List.forall_mem_cons, noField, noAlias, raises_fst,
      decide_eq_false_iff_not]
    exact ⟨by simp [hvalid], hne, by omega, by simp⟩
  rw [arm, execPRoots, attempt_of_none hpass]

/-- Settles O41: `RootsDone` after all the roots, and the copy of `SCR[RSEL]` into the destination. -/
theorem pRootsMultipliesTheLinearFactors : Obligations.PRootsMultipliesTheLinearFactors := by
  intro d a s hfield hvalid hne hdeg n m
  have hone : ∀ b, gfMul s.tab 1 b = b := by
    rw [hfield.tables hvalid]
    exact one_gfMul (hfield.validPowers_prim hvalid)
  let b := rootsLoop s.tab (s.getP a) { buf0 := s.scr0, buf1 := s.scr1, sel := false }
  have done : RootsDone s.tab (s.getP a) { buf0 := s.scr0, buf1 := s.scr1, sel := false } n b :=
    rootsDone_loop hone _ _ (by omega)
  have hcurrent := Scratch.current_eq_ite done.sel
  have hother := Scratch.other_eq_ite done.sel
  have hcoef (k : Nat) (hk : k < 256) : (((s.getP d).withOrd n).withCoefs n b.current.coef).coef k =
      if k ≤ n then b.current.coef k else (s.getP d).coef k := PolyReg.coef_withCoefs _ _ _ hk
  have hlow (k : Nat) (hk : k ≤ n) :
      (((s.getP d).withOrd n).withCoefs n b.current.coef).coef k = m n k := by
    rw [hcoef k (by omega), if_pos hk, done.product.coef k hk]
  refine ⟨((s.getP d).withOrd n).withCoefs n b.current.coef, b.buf0, b.buf1, ?_, ?_, ?_, hlow,
    ?_, ?_, ?_, ?_, ?_⟩
  · rw [← done.sel]
    exact exec_pRoots_completes hvalid hne hdeg
  · exact deg_withOrd (s.getP d) (by omega)
  · rw [hlow n le_rfl]
    exact monicProduct_leading _ _
  · intro k hk hnk
    rw [hcoef k hk, if_neg (by omega)]
  · rw [← hcurrent]
    exact done.product.deg
  · rw [← hcurrent]
    exact done.product.coef
  · rw [← hother]
    exact fun h2 => ⟨(done.previous h2).deg, (done.previous h2).coef⟩
  · exact done.untouched

end Sys2Proof.Machine
end

section
/-! The distances that the model computes are those of the spec's own words (R150, R151, R157). -/

namespace Sys2Proof.Machine

open Sys2Proof Sys2Proof.Claims

theorem popcount_eq_bitCount (v : Word) : popcount v = bitCount v.toNat :=
  List.countP_eq_length_filter

/-- The Hamming distance of two symbols is the number of bits in which they differ (R151). -/
theorem hamming_eq (o : Nat) (r : Word) : hamming o r = BitVec.ofNat 16 (bitCount (o ^^^ r.toNat)) := by
  have hcount : popcount (BitVec.ofNat 32 o ^^^ r) = bitCount (o ^^^ r.toNat) := by
    rw [popcount_eq_bitCount, bitCount, bitCount]
    congr 1
    refine List.filter_congr fun k hk => ?_
    rw [BitVec.testBit_toNat, BitVec.getLsbD_xor, BitVec.getLsbD_ofNat, Nat.testBit_xor,
      BitVec.testBit_toNat, decide_eq_true (List.mem_range.mp hk), Bool.true_and]
  rw [hamming, hcount]

/-- The distance table of a hard symbol (R157). -/
theorem hardDistances_eq (s : State) (r : Word) : s.hardDistances r =
    (List.range (2 ^ s.rate.toNat)).map fun o => BitVec.ofNat 16 (bitCount (o ^^^ r.toNat)) := by
  simp only [State.hardDistances, State.symbolCount, hamming_eq]

/-- The size of the signed difference of R151 is the distance between the two values. -/
theorem natAbs_softDifference (sym : Mem Byte 8) (o j : Nat) :
    (softDifference sym o j).natAbs = gap (sym.read j).toNat (idealValue o j) := by
  unfold softDifference idealSoft idealValue gap
  split <;> omega

theorem softLin_eq (s : State) (o : Nat) :
    softLin s.sym s.rate.toNat o = BitVec.ofNat 16 (linearDistance s o) := by
  simp only [softLin, linearDistance, natAbs_softDifference]

theorem softQuad_eq (s : State) (o : Nat) :
    softQuad s.sym s.rate.toNat o = BitVec.ofNat 16 (quadraticDistance s o) := by
  simp only [softQuad, quadraticDistance, natAbs_softDifference, Nat.shiftRight_eq_div_pow]

/-- The distance table of the soft symbols (R157). -/
theorem softDistances_eq (s : State) : s.softDistances = (List.range (2 ^ s.rate.toNat)).map fun o =>
    BitVec.ofNat 16 (if s.softmode then quadraticDistance s o else linearDistance s o) := by
  simp only [State.softDistances, State.symbolCount, softLin_eq, softQuad_eq,
    apply_ite (BitVec.ofNat 16)]

/-- A command that steps with `dist`, where a slice is left, is the trellis step with `dist` (R163, R175,
R176). -/
theorem exec_of_stepsWith {i : Instr} {s : State} {dist : List Metric} (h : StepsWith i s dist)
    (hleft : SliceLeft s) : exec i s = .next (s.trellisStep dist) := by
  have hslice : (noSlice s).1 = false := (noSlice_fst s).mpr hleft
  rcases h with ⟨a, rfl, hrange, rfl⟩ | ⟨rfl, rfl⟩
  · have arm : exec (.vtSteph a) s = execVtSteph a s := rfl
    have hpass : firstCause [noSlice s, raises .operandRange (s.symbolCount ≤ (s.getX a).toNat)] = none := by
      simp only [firstCause_eq_none, List.forall_mem_cons, raises_fst, decide_eq_false_iff_not]
      exact ⟨hslice, Nat.not_le.mpr hrange, by simp⟩
    rw [arm, execVtSteph, attempt_of_none hpass, hardDistances_eq]
    rfl
  · have arm : exec .vtSteps s = execVtSteps s := rfl
    have hpass : firstCause [noSlice s] = none := by
      simp only [firstCause_eq_none, List.forall_mem_cons]
      exact ⟨hslice, by simp⟩
    rw [arm, execVtSteps, attempt_of_none hpass, softDistances_eq]

end Sys2Proof.Machine
end

section
/-! Of the two banks a trellis step reads only the read bank (R22): each operation of a slice commutes with
replacing the write bank, as long as the new one agrees with the old at the states that were written. -/

namespace Sys2Proof.Machine

open Sys2Proof Sys2Proof.Claims

variable (s : State) (w : List Metric)

/-! ## What does not read the write bank -/

theorem State.setWriteBank_setWriteBank (w' : List Metric) :
    (s.setWriteBank w).setWriteBank w' = s.setWriteBank w' := by
  unfold State.setWriteBank; cases s.pmsel <;> rfl

theorem State.dist_setWriteBank_comm (dist : List Metric) :
    ({ s.setWriteBank w with dist := dist } : State) = ({ s with dist := dist } : State).setWriteBank w := by
  unfold State.setWriteBank; cases s.pmsel <;> rfl

theorem State.ovf_setWriteBank_comm (b : Bool) :
    ({ s.setWriteBank w with ovf := b } : State) = ({ s with ovf := b } : State).setWriteBank w := by
  unfold State.setWriteBank; cases s.pmsel <;> rfl

theorem State.rcnt_setWriteBank_comm (n : BitVec 16) :
    ({ s.setWriteBank w with rcnt := n } : State) = ({ s with rcnt := n } : State).setWriteBank w := by
  unfold State.setWriteBank; cases s.pmsel <;> rfl

theorem State.countSlice_setWriteBank : (s.setWriteBank w).countSlice = s.countSlice.setWriteBank w := by
  unfold State.setWriteBank State.countSlice; cases s.pmsel <;> rfl

theorem State.branch_setWriteBank : (s.setWriteBank w).branch = s.branch := by
  funext v
  simp only [State.branch, State.dist_setWriteBank, State.outtab_setWriteBank]

theorem State.stateCount_setWriteBank : (s.setWriteBank w).stateCount = s.stateCount := by
  simp only [State.stateCount, State.order_setWriteBank]

theorem State.active_setWriteBank (skip : Nat) : (s.setWriteBank w).active skip = s.active skip := by
  funext st
  simp only [State.active, State.stateCount_setWriteBank]

theorem State.phase_setWriteBank : (s.setWriteBank w).phase = s.phase := by
  simp only [State.phase, State.slice_setWriteBank, State.order_setWriteBank, State.sets_setWriteBank]

theorem State.pathBits_setWriteBank (n idx st : Nat) :
    (s.setWriteBank w).pathBits n idx st = s.pathBits n idx st := by
  induction n generalizing idx st with
  | zero => rfl
  | succ n ih =>
    simp only [State.pathBits, ih, State.slotBefore, State.histBit, State.predecessor,
      State.cap_setWriteBank, State.hist_setWriteBank, State.order_setWriteBank]

theorem State.traceback_setWriteBank (b mind : Nat) :
    (s.setWriteBank w).traceback b mind = (s.traceback b mind).setWriteBank w := by
  rw [State.traceback_eq, State.traceback_eq, State.pathBits_setWriteBank, State.hlen_setWriteBank,
    State.hidx_setWriteBank, State.outq_setWriteBank]
  unfold State.setWriteBank
  cases s.pmsel <;> rfl

/-! ## The slices -/

theorem State.warmUpSlice_setWriteBank : (s.setWriteBank w).warmUpSlice =
    s.warmUpSlice.setWriteBank (replaceAt w (fun j => decide (j < s.warmCount)) s.warmMetric) := by
  have hcount : (s.setWriteBank w).warmCount = s.warmCount := by
    rw [State.warmCount, State.slice_setWriteBank, State.warmCount]
  have hmetric : (s.setWriteBank w).warmMetric = s.warmMetric := by
    funext j
    simp only [State.warmMetric, State.branch_setWriteBank, State.readBank_setWriteBank]
  have hovf : (s.setWriteBank w).warmOverflows = s.warmOverflows := by
    funext j
    simp only [State.warmOverflows, State.branch_setWriteBank, State.readBank_setWriteBank]
  simp only [State.warmUpSlice, hcount, hmetric, hovf, State.writeBank_setWriteBank,
    State.ovf_setWriteBank, State.ovf_setWriteBank_comm, State.setWriteBank_setWriteBank]

theorem State.acsSlice_setWriteBank (skip : Nat) : (s.setWriteBank w).acsSlice skip =
    (s.acsSlice skip).setWriteBank (replaceAt w (s.active skip) s.survivorMetric) := by
  have h0 : (s.setWriteBank w).candidate0 = s.candidate0 := by
    funext st
    simp only [State.candidate0, State.branch_setWriteBank, State.readBank_setWriteBank]
  have h1 : (s.setWriteBank w).candidate1 = s.candidate1 := by
    funext st
    simp only [State.candidate1, State.branch_setWriteBank, State.readBank_setWriteBank,
      State.stateCount_setWriteBank]
  have hsurvivor : (s.setWriteBank w).survivor = s.survivor := by
    funext st
    simp only [State.survivor, h0, h1]
  have hmetric : (s.setWriteBank w).survivorMetric = s.survivorMetric := by
    funext st
    simp only [State.survivorMetric, hsurvivor, h0, h1]
  have hovf : (s.setWriteBank w).candidateOverflows = s.candidateOverflows := by
    funext st
    simp only [State.candidateOverflows, State.branch_setWriteBank, State.readBank_setWriteBank,
      State.stateCount_setWriteBank]
  simp only [State.acsSlice, hsurvivor, hmetric, hovf, State.active_setWriteBank,
    State.stateCount_setWriteBank, State.writeBank_setWriteBank, State.hist_setWriteBank,
    State.hidx_setWriteBank, State.ovf_setWriteBank]
  unfold State.setWriteBank
  cases s.pmsel <;> rfl

theorem State.renormalise_setWriteBank (b : Nat) : (s.setWriteBank w).renormalise b =
    (s.renormalise b).setWriteBank (replaceAt w (fun st => decide (st < s.stateCount))
      fun st => w.getD st 0 - w.getD b 0) := by
  simp only [State.renormalise, State.writeBank_setWriteBank, State.stateCount_setWriteBank,
    State.setWriteBank_setWriteBank]

/-! ## Banks that agree at the active states -/

/-- Two banks of one length with the same metrics at the indices `p`. -/
structure AgreeOn (p : Nat → Bool) (w w' : List Metric) : Prop where
  length : w.length = w'.length
  metric : ∀ k, p k = true → w.getD k 0 = w'.getD k 0

variable {s w}

/-- After the same metrics were written at the indices `p`, two banks of one length agree there. -/
theorem AgreeOn.of_replaceAt {w' : List Metric} (h : w.length = w'.length) (p : Nat → Bool)
    (f : Nat → Metric) : AgreeOn p (replaceAt w p f) (replaceAt w' p f) where
  length := by rw [replaceAt_length, replaceAt_length, h]
  metric k hk := by
    rw [replaceAt_getD, replaceAt_getD, ← h]
    by_cases hlt : k < w.length
    · rw [if_pos ⟨hlt, hk⟩, if_pos ⟨hlt, hk⟩]
    · rw [if_neg (fun c => hlt c.1), if_neg (fun c => hlt c.1), List.getD_eq_default _ _ (by omega),
        List.getD_eq_default _ _ (by omega)]

/-- State 0 is active in every slice. -/
theorem State.active_zero (s : State) (skip : Nat) : s.active skip 0 = true := by
  have hpos : 0 < s.stateCount := Nat.two_pow_pos _
  simp [State.active, hpos]

/-- One comparison of the search: state `st` against the best state so far and its metric (R169). -/
def State.searchStep (s : State) (skip : Nat) (acc : Nat × Nat) (st : Nat) : Nat × Nat :=
  if s.active skip st && decide ((s.writeBank.getD st 0).toNat < acc.2)
  then (st, (s.writeBank.getD st 0).toNat) else acc

theorem State.search_eq (s : State) (skip : Nat) :
    s.search skip = ((List.range s.stateCount).foldl (s.searchStep skip) (0, 65535)).1 := rfl

/-- A comparison keeps the best state or takes one that is active. -/
theorem State.active_searchStep {acc : Nat × Nat} {skip : Nat} (st : Nat)
    (h : s.active skip acc.1 = true) : s.active skip (s.searchStep skip acc st).1 = true := by
  unfold State.searchStep
  split
  next hc => exact (Bool.and_eq_true_iff.mp hc).1
  next => exact h

/-- The search finds an active state (R169). -/
theorem State.active_search (s : State) (skip : Nat) : s.active skip (s.search skip) = true :=
  List.foldlRecOn (motive := fun acc : Nat × Nat => s.active skip acc.1 = true) _ _ (s.active_zero skip)
    fun _ h st _ => State.active_searchStep st h

/-- The search reads the write bank at active states only. -/
theorem State.search_setWriteBank {skip : Nat} (h : AgreeOn (s.active skip) w s.writeBank) :
    (s.setWriteBank w).search skip = s.search skip := by
  rw [State.search_eq, State.search_eq, State.stateCount_setWriteBank]
  congr 1
  refine List.foldl_ext _ _ _ fun acc st _ => ?_
  rw [State.searchStep, State.searchStep, State.writeBank_setWriteBank, State.active_setWriteBank]
  by_cases hst : s.active skip st = true
  · rw [h.metric st hst]
  · rw [Bool.eq_false_of_not_eq_true hst, Bool.false_and, Bool.false_and]
    rfl

/-- Renormalisation by an active state keeps the agreement at the active states. -/
theorem AgreeOn.renormalise {skip b : Nat} (h : AgreeOn (s.active skip) w s.writeBank)
    (hb : s.active skip b = true) :
    AgreeOn (s.active skip)
      (replaceAt w (fun st => decide (st < s.stateCount)) fun st => w.getD st 0 - w.getD b 0)
      (s.renormalise b).writeBank where
  length := by rw [State.writeBank_renormalise, replaceAt_length, replaceAt_length, h.length]
  metric k hk := by
    rw [State.writeBank_renormalise, replaceAt_getD, replaceAt_getD, h.metric k hk, h.metric b hb,
      h.length]

/-! ## History processing -/

/-- The traceback of R168, where the ring is full. -/
def State.emitIfFull (s : State) (b : Nat) : State :=
  if s.hlen = s.cap then s.traceback b s.tbmin.toNat else s

/-- History processing: count, renormalise where the interval is over, emit where the ring is full
(R168). -/
theorem State.history_eq (s : State) (skip : Nat) : s.history skip =
    let t := s.countSlice
    let b := t.search skip
    (if t.rcnt = t.rint then { t.renormalise b with rcnt := 0 } else t).emitIfFull b := by
  unfold State.history State.emitIfFull
  dsimp only
  split <;> rfl

theorem State.emitIfFull_setWriteBank (s : State) (w : List Metric) (b : Nat) :
    (s.setWriteBank w).emitIfFull b = (s.emitIfFull b).setWriteBank w := by
  unfold State.emitIfFull
  rw [State.hlen_setWriteBank, State.cap_setWriteBank, State.tbmin_setWriteBank,
    State.traceback_setWriteBank]
  split <;> rfl

theorem State.writeBank_emitIfFull (s : State) (b : Nat) : (s.emitIfFull b).writeBank = s.writeBank := by
  unfold State.emitIfFull; split <;> rfl

theorem State.history_setWriteBank {skip : Nat} (h : AgreeOn (s.active skip) w s.writeBank) :
    ∃ w', (s.setWriteBank w).history skip = (s.history skip).setWriteBank w' ∧
      AgreeOn (s.active skip) w' (s.history skip).writeBank := by
  have hcounted : AgreeOn (s.countSlice.active skip) w s.countSlice.writeBank := h
  rw [State.history_eq, State.history_eq]
  dsimp only
  rw [State.countSlice_setWriteBank, State.search_setWriteBank hcounted, State.rcnt_setWriteBank,
    State.rint_setWriteBank]
  split
  · rw [State.renormalise_setWriteBank, State.rcnt_setWriteBank_comm, State.emitIfFull_setWriteBank]
    refine ⟨_, rfl, ?_⟩
    rw [State.writeBank_emitIfFull]
    exact hcounted.renormalise (s.countSlice.active_search skip)
  · rw [State.emitIfFull_setWriteBank]
    refine ⟨_, rfl, ?_⟩
    rw [State.writeBank_emitIfFull]
    exact h

/-! ## The whole slice -/

/-- Past the warm-up the states that the slice writes are the active ones (R162). -/
theorem State.active_of_writtenState {k : Nat} (hw : s.order.toNat < s.slice.toNat + 2)
    (hk : WrittenState s k) : s.active s.phase.skip k = true := by
  have hskip : s.phase.skip = skipOf s := by
    unfold State.phase skipOf
    dsimp only
    rw [if_neg (by omega)]
    split <;> rfl
  rw [WrittenState, if_neg (by omega)] at hk
  rw [hskip, State.active, Bool.and_eq_true, decide_eq_true_eq, beq_iff_eq]
  exact ⟨hk.1, Nat.mod_eq_zero_of_dvd hk.2⟩

/-- With another write bank of the same length a slice differs in its write bank only, and not at the
metrics that it writes. -/
theorem State.slicePhase_setWriteBank (h : w.length = s.writeBank.length) :
    ∃ w', (s.setWriteBank w).slicePhase = s.slicePhase.setWriteBank w' ∧
      ∀ k, WrittenState s k → w'.getD k 0 = s.slicePhase.writeBank.getD k 0 := by
  rcases s.slicePhase_cases with ⟨hw, e⟩ | ⟨hw, e⟩ <;>
    rcases (s.setWriteBank w).slicePhase_cases with ⟨hw', e'⟩ | ⟨hw', e'⟩ <;>
    rw [State.slice_setWriteBank, State.order_setWriteBank] at hw'
  · rw [e, e', State.warmUpSlice_setWriteBank, State.writeBank_warmUpSlice]
    refine ⟨_, rfl, fun k hk => ?_⟩
    rw [WrittenState, if_pos hw] at hk
    exact (AgreeOn.of_replaceAt h _ _).metric k (decide_eq_true hk)
  · omega
  · omega
  · rw [e, e', State.phase_setWriteBank, State.acsSlice_setWriteBank]
    have hactive : (s.acsSlice s.phase.skip).active s.phase.skip = s.active s.phase.skip := by
      funext st
      rw [State.active, State.active, (SliceFrame.of_acsSlice s _).stateCount]
    have agree : AgreeOn ((s.acsSlice s.phase.skip).active s.phase.skip)
        (replaceAt w (s.active s.phase.skip) s.survivorMetric) (s.acsSlice s.phase.skip).writeBank := by
      rw [State.writeBank_acsSlice, hactive]
      exact .of_replaceAt h _ _
    obtain ⟨w', hw', agree'⟩ := State.history_setWriteBank agree
    refine ⟨w', hw', fun k hk => agree'.metric k ?_⟩
    rw [hactive]
    exact State.active_of_writtenState hw hk

/-- With another write bank of the same length a trellis step differs in the bank written only, and not at
the metrics that the slice writes. -/
theorem State.trellisStep_withWriteBank (dist : List Metric) (h : w.length = s.writeBank.length) :
    let t := s.trellisStep dist
    let t' := (withWriteBank s w).trellisStep dist
    t' = { t with pm0 := t'.pm0, pm1 := t'.pm1 } ∧
    ∀ k, WrittenState s k → readPM t' k = readPM t k := by
  have hbank : withWriteBank s w = s.setWriteBank w := by
    unfold withWriteBank State.setWriteBank; cases s.pmsel <;> rfl
  obtain ⟨w', e, agree⟩ := State.slicePhase_setWriteBank (s := { s with dist := dist }) h
  have hstep : (s.setWriteBank w).trellisStep dist =
      (({ s with dist := dist } : State).slicePhase.setWriteBank w').endSlice := by
    rw [State.trellisStep, State.dist_setWriteBank_comm, e]
  dsimp only
  rw [hbank, hstep]
  constructor
  · unfold State.setWriteBank
    rw [State.trellisStep]
    split <;> rfl
  · intro k hk
    have hread : ((({ s with dist := dist } : State).slicePhase.setWriteBank w').endSlice).readBank.getD k 0 =
        (s.trellisStep dist).readBank.getD k 0 := by
      rw [State.readBank_endSlice, State.writeBank_setWriteBank, State.trellisStep, State.readBank_endSlice]
      exact agree k hk
    exact congrArg BitVec.toNat hread

/-- Settles O50: the frame of a step (`trellisStep_frame`), what it does to the banks and the ring
(`writeBank_slicePhase`, `hist_slicePhase`), and that it reads the read bank only. -/
theorem aTrellisStepWritesOnlyTheDecoder : Obligations.ATrellisStepWritesOnlyTheDecoder := by
  intro i s dist _ hleft _ hi
  refine ⟨s.trellisStep dist, exec_of_stepsWith hi hleft, s.trellisStep_frame dist, ?_, ?_, ?_, ?_⟩
  · intro k
    have hbank : (s.trellisStep dist).writeBank = s.readBank := by
      rw [State.trellisStep, State.writeBank_endSlice, State.readBank_slicePhase]
      rfl
    exact congrArg (fun w => (w.getD k 0).toNat) hbank
  · intro k hk
    have hbank : (s.trellisStep dist).readBank.getD k 0 = s.writeBank.getD k 0 := by
      rw [State.trellisStep, State.readBank_endSlice]
      exact (State.writeBank_slicePhase { s with dist := dist }).upper k hk
    exact congrArg BitVec.toNat hbank
  · intro k hk
    rcases State.hist_slicePhase { s with dist := dist } with e | ⟨active, f, e⟩
    · exact congrArg (·[k]?) e
    · exact (congrArg (·[k]?) e).trans (List.getElem?_set_ne hk.symm)
  · intro w hw
    have hi' : StepsWith i (withWriteBank s w) dist := hi
    exact ⟨_, exec_of_stepsWith hi' hleft, State.trellisStep_withWriteBank dist hw⟩

end Sys2Proof.Machine
end

section
/-! The command words (R70 to R76): the fields of a word of each format, when a word is of a format, and
from these the round trips between `decode` and `encode` and the opcode table as the decoder's domain. -/

namespace Sys2Proof

open Sys2Proof.Machine Sys2Proof.Laws

/-! ## The fields of a word (R71, R72) -/

section Fields
variable (op : BitVec 8) (d a b : BitVec 4) (imm : BitVec 16) (v w : Word)

@[simp] theorem opcodeField_wordR : opcodeField (wordR op d a b) = op := by
  ext k hk; simp [opcodeField, wordR]; grind

@[simp] theorem dField_wordR : dField (wordR op d a b) = d := by
  ext k hk; simp [dField, wordR]; grind

@[simp] theorem aField_wordR : aField (wordR op d a b) = a := by
  ext k hk; simp [aField, wordR]; grind

@[simp] theorem bField_wordR : bField (wordR op d a b) = b := by
  ext k hk; simp [bField, wordR]; grind

@[simp] theorem zeroField_wordR : zeroField (wordR op d a b) = 0 := by
  ext k hk; simp [zeroField, wordR]; grind

@[simp] theorem opcodeField_wordI : opcodeField (wordI op d imm) = op := by
  ext k hk; simp [opcodeField, wordI]; grind

@[simp] theorem dField_wordI : dField (wordI op d imm) = d := by
  ext k hk; simp [dField, wordI]; grind

@[simp] theorem aField_wordI : aField (wordI op d imm) = 0 := by
  ext k hk; simp [aField, wordI]; grind

@[simp] theorem immField_wordI : immField (wordI op d imm) = imm := by
  ext k hk; simp [immField, wordI]; grind

theorem wordR_fields (h : zeroField w = 0) :
    wordR (opcodeField w) (dField w) (aField w) (bField w) = w := by
  have hw : opcodeField w ++ dField w ++ aField w ++ bField w ++ zeroField w = w := by
    simp only [opcodeField, dField, aField, bField, zeroField,
      BitVec.extractLsb'_append_extractLsb'_eq_extractLsb', BitVec.extractLsb'_eq_self]
  rwa [h] at hw

theorem wordI_fields (h : aField w = 0) : wordI (opcodeField w) (dField w) (immField w) = w := by
  have hw : opcodeField w ++ dField w ++ aField w ++ immField w = w := by
    simp only [opcodeField, dField, aField, immField,
      BitVec.extractLsb'_append_extractLsb'_eq_extractLsb', BitVec.extractLsb'_eq_self]
  rwa [h] at hw

/-! A mask acts on each field of its own. -/

theorem opcodeField_and : opcodeField (w &&& v) = opcodeField w &&& opcodeField v :=
  BitVec.extractLsb'_and

theorem dField_and : dField (w &&& v) = dField w &&& dField v := BitVec.extractLsb'_and

theorem aField_and : aField (w &&& v) = aField w &&& aField v := BitVec.extractLsb'_and

theorem bField_and : bField (w &&& v) = bField w &&& bField v := BitVec.extractLsb'_and

theorem zeroField_and : zeroField (w &&& v) = zeroField w &&& zeroField v := BitVec.extractLsb'_and

theorem toNat_opcodeField : (opcodeField w).toNat = w.toNat / 2 ^ 24 := by
  have := w.isLt
  simp only [opcodeField, BitVec.extractLsb'_toNat, Nat.shiftRight_eq_div_pow]
  omega

theorem toNat_dField_lt : (dField w).toNat < 16 := (dField w).isLt

theorem toNat_immField_lt : (immField w).toNat < 65536 := (immField w).isLt

end Fields

/-! ## Operands in their fields (R73, R74) -/

@[simp] theorem toNat_regBits (r : Fin 16) : (regBits r).toNat = r.val := by
  simp [regBits]

@[simp] theorem regBits_dReg (w : Word) : regBits (dReg w) = dField w := by simp [regBits, dReg]

@[simp] theorem regBits_aReg (w : Word) : regBits (aReg w) = aField w := by simp [regBits, aReg]

@[simp] theorem regBits_bReg (w : Word) : regBits (bReg w) = bField w := by simp [regBits, bReg]

section Operands
variable (op : BitVec 8) (r : Fin 16) (d a b : BitVec 4) (imm : BitVec 16)

@[simp] theorem dReg_wordR : dReg (wordR op (regBits r) a b) = r := by simp [dReg]

@[simp] theorem aReg_wordR : aReg (wordR op d (regBits r) b) = r := by simp [aReg]

@[simp] theorem bReg_wordR : bReg (wordR op d a (regBits r)) = r := by simp [bReg]

@[simp] theorem dReg_wordI : dReg (wordI op (regBits r) imm) = r := by simp [dReg]

end Operands

@[simp] theorem hiByte_append (hi lo : Byte) : hiByte (hi ++ lo) = hi :=
  BitVec.extractLsb'_append_eq_left

@[simp] theorem loByte_append (hi lo : Byte) : loByte (hi ++ lo) = lo :=
  BitVec.extractLsb'_append_eq_right

@[simp] theorem hiByte_append_loByte (imm : BitVec 16) : hiByte imm ++ loByte imm = imm := by
  simp only [hiByte, loByte, BitVec.extractLsb'_append_extractLsb'_eq_extractLsb',
    BitVec.extractLsb'_eq_self]

/-! ## When a word is of a format (R76) -/

/-- The decoder's test of one field: it is 0 where the opcode does not use it. -/
theorem field_test_iff {used : Bool} {f : BitVec 4} :
    (used || f.toNat == 0) = true ↔ (used = false → f = 0) := by
  cases used <;> simp [BitVec.toNat_eq]

theorem formatR_eq_some {w : Word} {usesD usesA usesB : Bool} {i j : Instr} :
    formatR w usesD usesA usesB i = some j ↔ i = j ∧ (usesD = false → dField w = 0) ∧
      (usesA = false → aField w = 0) ∧ (usesB = false → bField w = 0) ∧ zeroField w = 0 := by
  have hz : ((zeroField w).toNat == 0) = true ↔ zeroField w = 0 := by simp [BitVec.toNat_eq]
  rw [formatR, Option.ite_none_right_eq_some, Option.some_inj, and_comm]
  simp only [Bool.and_eq_true, field_test_iff, hz, and_assoc]

theorem formatI_eq_some {w : Word} {usesD : Bool} {i j : Instr} :
    formatI w usesD i = some j ↔ i = j ∧ (usesD = false → dField w = 0) ∧ aField w = 0 := by
  have ha : ((aField w).toNat == 0) = true ↔ aField w = 0 := by simp [BitVec.toNat_eq]
  rw [formatI, Option.ite_none_right_eq_some, Option.some_inj, and_comm]
  simp only [Bool.and_eq_true, field_test_iff, ha]

/-- A field that is 0 where unused is the operand its opcode takes from it. -/
theorem ite_used {used : Bool} {f : BitVec 4} (h : used = false → f = 0) :
    (if used then f else 0) = f := by
  cases used with
  | true => rfl
  | false => exact (h rfl).symm

/-- The words of format R are those put together from the fields their opcode uses, and zeros. -/
theorem formatR_eq_some_iff_word {w : Word} {usesD usesA usesB : Bool} {i j : Instr} :
    formatR w usesD usesA usesB i = some j ↔ i = j ∧ wordR (opcodeField w)
      (if usesD then dField w else 0) (if usesA then aField w else 0)
      (if usesB then bField w else 0) = w := by
  rw [formatR_eq_some]
  refine and_congr_right fun _ => ⟨fun ⟨hd, ha, hb, hz⟩ => ?_, fun hw => ?_⟩
  · rw [ite_used hd, ite_used ha, ite_used hb, wordR_fields w hz]
  · have hd := congrArg dField hw
    have ha := congrArg aField hw
    have hb := congrArg bField hw
    have hz := congrArg zeroField hw
    rw [dField_wordR] at hd
    rw [aField_wordR] at ha
    rw [bField_wordR] at hb
    rw [zeroField_wordR] at hz
    exact ⟨fun h => by simpa [h] using hd.symm, fun h => by simpa [h] using ha.symm,
      fun h => by simpa [h] using hb.symm, hz.symm⟩

/-- The words of format I are those put together from the fields their opcode uses, and zeros. -/
theorem formatI_eq_some_iff_word {w : Word} {usesD : Bool} {i j : Instr} :
    formatI w usesD i = some j ↔
      i = j ∧ wordI (opcodeField w) (if usesD then dField w else 0) (immField w) = w := by
  rw [formatI_eq_some]
  refine and_congr_right fun _ => ⟨fun ⟨hd, ha⟩ => ?_, fun hw => ?_⟩
  · rw [ite_used hd, wordI_fields w ha]
  · have hd := congrArg dField hw
    have ha := congrArg aField hw
    rw [dField_wordI] at hd
    rw [aField_wordI] at ha
    exact ⟨fun h => by simpa [h] using hd.symm, ha.symm⟩

/-! ## Encoding, then decoding -/

/-- Settles O1, instruction by instruction: its word has its opcode and its operands in the fields they
are read from, and 0 in the others. A literal or an unsigned immediate comes back because it fits. -/
theorem decodeUndoesEncode : Obligations.DecodeUndoesEncode := by
  intro i h
  cases i
  case pSetord d n =>
    have hn : n < 65536 := of_decide_eq_true h
    simp [encode, decode, formatI_eq_some, hn]
  case bmSym j a =>
    have hj : j < 16 := of_decide_eq_true h
    simp [encode, decode, formatR_eq_some, hj]
  case bmSymi j n =>
    obtain ⟨hj, hn⟩ : j < 16 ∧ n < 65536 := of_decide_eq_true h
    simp [encode, decode, formatI_eq_some, hj, hn]
  case vtMode n =>
    have hn : n < 65536 := of_decide_eq_true h
    simp [encode, decode, formatI_eq_some, hn]
  case vtPoly j a =>
    have hj : j < 16 := of_decide_eq_true h
    simp [encode, decode, formatR_eq_some, hj]
  all_goals simp [encode, decode, formatR_eq_some, formatI_eq_some]

/-- A word that an instruction encodes to decodes to it. -/
theorem decode_of_encode_eq {w : Word} {i : Instr} (h : encode i = w) (hi : i.wellFormed = true) :
    decode w = some i :=
  h ▸ decodeUndoesEncode i hi

/-- Settles O4: each word of R78 is the word of its command. -/
theorem theSpecsExampleWordsDecode : Obligations.TheSpecsExampleWordsDecode :=
  ⟨decode_of_encode_eq rfl rfl, decode_of_encode_eq rfl rfl, decode_of_encode_eq rfl rfl,
    decode_of_encode_eq rfl rfl, decode_of_encode_eq rfl rfl, decode_of_encode_eq rfl rfl,
    decode_of_encode_eq rfl rfl, decode_of_encode_eq rfl rfl, decode_of_encode_eq rfl rfl,
    decode_of_encode_eq rfl rfl, decode_of_encode_eq rfl rfl, decode_of_encode_eq rfl rfl,
    decode_of_encode_eq rfl rfl, decode_of_encode_eq rfl rfl, decode_of_encode_eq rfl rfl⟩

/-! ## Decoding, then encoding -/

/-- Settles O2, arm by arm of the decoder: the arm's format puts the word together from its opcode and
the fields that are the instruction's operands. -/
theorem encodeUndoesDecode : Obligations.EncodeUndoesDecode := by
  intro w i h
  unfold decode at h
  split at h
  case h_52 => cases h
  all_goals
    rename_i hop
    simp only [formatR_eq_some_iff_word, formatI_eq_some_iff_word, hop] at h
    obtain ⟨rfl, hw⟩ := h
    refine ⟨by simp [Instr.wellFormed, toNat_dField_lt, toNat_immField_lt], ?_⟩
    simpa [encode] using hw

/-! ## The rows of the opcode table (R75, R76) -/

/-- The word of every instruction is of the row that carries its mnemonic. -/
theorem rowMatch : (i : Instr) → RowMatch.Statement i
  | .nop => RowMatch.nop
  | .li a b => RowMatch.li a b
  | .lih a b => RowMatch.lih a b
  | .mov a b => RowMatch.mov a b
  | .clrf => RowMatch.clrf
  | .gfBuild a => RowMatch.gfBuild a
  | .gfAdd a b c => RowMatch.gfAdd a b c
  | .gfSub a b c => RowMatch.gfSub a b c
  | .gfMul a b c => RowMatch.gfMul a b c
  | .gfDiv a b c => RowMatch.gfDiv a b c
  | .gfSum a b c => RowMatch.gfSum a b c
  | .gfPow a b c => RowMatch.gfPow a b c
  | .gfLog a b => RowMatch.gfLog a b
  | .gfExp a b => RowMatch.gfExp a b
  | .gfMullog a b c => RowMatch.gfMullog a b c
  | .gfDivlog a b c => RowMatch.gfDivlog a b c
  | .pSetord a b => RowMatch.pSetord a b
  | .pGetord a b => RowMatch.pGetord a b
  | .pLdc a b c => RowMatch.pLdc a b c
  | .pStc a b c => RowMatch.pStc a b c
  | .pClr a => RowMatch.pClr a
  | .pMov a b => RowMatch.pMov a b
  | .pMul a b c => RowMatch.pMul a b c
  | .pMod a b c => RowMatch.pMod a b c
  | .pDer a b => RowMatch.pDer a b
  | .pEval a b c => RowMatch.pEval a b c
  | .pPows a b => RowMatch.pPows a b
  | .pEvalp a b c => RowMatch.pEvalp a b c
  | .pTolog a b => RowMatch.pTolog a b
  | .pEvall a b c => RowMatch.pEvall a b c
  | .pRoots a b => RowMatch.pRoots a b
  | .pLdci a b c => RowMatch.pLdci a b c
  | .bmHard a b c => RowMatch.bmHard a b c
  | .bmSoftl a b => RowMatch.bmSoftl a b
  | .bmSoftq a b => RowMatch.bmSoftq a b
  | .bmSym a b => RowMatch.bmSym a b
  | .bmSymi a b => RowMatch.bmSymi a b
  | .vtCfg a b => RowMatch.vtCfg a b
  | .vtInit => RowMatch.vtInit
  | .vtReset a => RowMatch.vtReset a
  | .vtSteph a => RowMatch.vtSteph a
  | .vtSteps => RowMatch.vtSteps
  | .vtFlush => RowMatch.vtFlush
  | .vtMode a => RowMatch.vtMode a
  | .encRst => RowMatch.encRst
  | .encBit a b => RowMatch.encBit a b
  | .vtQlen a => RowMatch.vtQlen a
  | .vtRdq a b => RowMatch.vtRdq a b
  | .vtTab a b => RowMatch.vtTab a b
  | .vtPm a b => RowMatch.vtPm a b
  | .vtPoly a b => RowMatch.vtPoly a b

/-- A decoded word is of the row that carries the mnemonic of its instruction. -/
theorem row_of_decode {w : Word} {i : Instr} (h : decode w = some i) :
    ∃ r ∈ opcodeRows, r.mnemonic = i.mnemonic ∧ r.covers w := by
  obtain ⟨-, hw⟩ := encodeUndoesDecode w i h
  exact hw ▸ rowMatch i

/-- What a row says of each field of its words. -/
theorem fields_of_covers {r : OpcodeRow} {w : Word} (h : r.covers w) :
    opcodeField w &&& opcodeField r.mask = opcodeField r.pattern ∧
    dField w &&& dField r.mask = dField r.pattern ∧
    aField w &&& aField r.mask = aField r.pattern ∧
    bField w &&& bField r.mask = bField r.pattern ∧
    zeroField w &&& zeroField r.mask = zeroField r.pattern := by
  rw [← opcodeField_and, ← dField_and, ← aField_and, ← bField_and, ← zeroField_and,
    show w &&& r.mask = r.pattern from h]
  exact ⟨rfl, rfl, rfl, rfl, rfl⟩

/-! A field masked by ones is the field. -/

theorem and_ones4 (f : BitVec 4) : f &&& 0xF#4 = f := BitVec.and_allOnes

theorem and_ones8 (f : BitVec 8) : f &&& 0xFF#8 = f := BitVec.and_allOnes

theorem and_ones12 (f : BitVec 12) : f &&& 0xFFF#12 = f := BitVec.and_allOnes

theorem opcodeField_mask : ∀ r ∈ opcodeRows, opcodeField r.mask = 0xFF#8 := by decide

theorem opcodeField_of_covers {r : OpcodeRow} {w : Word} (hr : r ∈ opcodeRows) (h : r.covers w) :
    opcodeField w = opcodeField r.pattern := by
  obtain ⟨hop, -⟩ := fields_of_covers h
  rwa [opcodeField_mask r hr, and_ones8] at hop

theorem nodup_opcodes : (opcodeRows.map fun r => opcodeField r.pattern).Nodup := by decide

/-- No word is of two rows: the rows' opcodes differ. -/
theorem row_unique {r r' : OpcodeRow} {w : Word} (hr : r ∈ opcodeRows) (hr' : r' ∈ opcodeRows)
    (h : r.covers w) (h' : r'.covers w) : r = r' :=
  List.inj_on_of_nodup_map nodup_opcodes hr hr'
    ((opcodeField_of_covers hr h).symm.trans (opcodeField_of_covers hr' h'))

/-- A word of a row is legal, row by row: the row's opcode picks the arm of the decoder, and the row's
mask makes 0 the fields that the arm wants 0. -/
theorem exists_decode_of_row (w : Word) :
    ∀ r ∈ opcodeRows, r.covers w → ∃ i, decode w = some i := by
  simp only [opcodeRows, List.cons_append, List.nil_append, List.forall_mem_cons, List.not_mem_nil,
    IsEmpty.forall_iff, implies_true, and_true]
  and_intros
  all_goals
    intro h
    obtain ⟨hop, hd, ha, hb, hz⟩ := fields_of_covers h
    simp only [opcodeField, dField, aField, bField, zeroField, BitVec.reduceExtractLsb',
      and_ones4, and_ones8, and_ones12] at hop hd ha hb hz
    simp [decode, formatR_eq_some, formatI_eq_some, opcodeField, dField, aField, bField, zeroField, *]

/-- A word decodes exactly when it is of a row. -/
theorem isSome_decode_iff (w : Word) :
    (decode w).isSome = true ↔ ∃ r ∈ opcodeRows, r.covers w := by
  rw [Option.isSome_iff_exists]
  constructor
  · rintro ⟨i, h⟩
    obtain ⟨r, hr, -, hw⟩ := row_of_decode h
    exact ⟨r, hr, hw⟩
  · rintro ⟨r, hr, hw⟩
    exact exists_decode_of_row w r hr hw

/-- The opcodes that R76 leaves unassigned: 0x05 to 0x0F, 0x1B to 0x1F, 0x35 to 0x3F, 0x4E to 0xFF. -/
def unassignedOpcodes : List Nat :=
  List.range' 0x05 11 ++ List.range' 0x1B 5 ++ List.range' 0x35 11 ++ List.range' 0x4E 178

theorem opcode_of_row_assigned :
    ∀ r ∈ opcodeRows, (opcodeField r.pattern).toNat ∉ unassignedOpcodes := by decide

theorem decode_unassigned {w : Word} (h : w.toNat / 2 ^ 24 ∈ unassignedOpcodes) : decode w = none := by
  rw [← Option.not_isSome_iff_eq_none, isSome_decode_iff]
  rintro ⟨r, hr, hw⟩
  rw [← toNat_opcodeField, opcodeField_of_covers hr hw] at h
  exact opcode_of_row_assigned r hr h

theorem step_of_illegal {s : State} {w : Word} {rest : List HostEvent}
    (hh : s.host = .command w :: rest) (hf : s.fault = false) (hd : decode w = none) :
    step s = .next (({ s with host := rest } : State).latch .illegalCommand w) := by
  simp only [step, State.nextEvent, hh, presentWord, hf, hd, Bool.false_eq_true, if_false]

/-- Settles O3, from the rows' round trip, their distinct opcodes, and the step on an illegal word. -/
theorem everyWordMatchesOneRowOrIsIllegal : Obligations.EveryWordMatchesOneRowOrIsIllegal :=
  ⟨fun w => ⟨isSome_decode_iff w, fun _ => row_of_decode, fun _ hr _ hr' => row_unique hr hr'⟩,
    fun _ => decode_unassigned, decode_of_encode_eq (i := .nop) rfl rfl,
    fun _ _ _ => step_of_illegal⟩

end Sys2Proof
end

section
/-! The spec's own words for the field (R91, R95) and the model's `xtime`: `scaled` is the iteration of
`xtime`, `Primitive` is the test of `GF.BUILD`, and four powers of alpha decide it. -/

namespace Sys2Proof.Machine

open Sys2Proof Sys2Proof.Claims

/-! ## `xtime` (R91) -/

/-- `xtime` is R91's multiplication by alpha, for a polynomial with bit 8 set, as `GF.BUILD` requires
(R94). -/
theorem toNat_xtime {prim : BitVec 9} (hp : 0x100 ≤ prim.toNat) (e : Byte) :
    (xtime prim e).toNat = timesAlpha prim.toNat e.toNat := by
  have hdouble : (e.setWidth 9 <<< 1).toNat = 2 * e.toNat := by
    rw [BitVec.toNat_shiftLeft, BitVec.toNat_setWidth, Nat.shiftLeft_eq]
    omega
  simp only [xtime, timesAlpha, hdouble]
  split
  next hbig =>
    have hreduced : ((2 * e.toNat) ^^^ prim.toNat) / 2 ^ 8 = 0 := by
      rw [Nat.xor_div_two_pow, show 2 * e.toNat / 2 ^ 8 = 1 by omega,
        show prim.toNat / 2 ^ 8 = 1 by omega, Nat.xor_self]
    rw [BitVec.toNat_setWidth, BitVec.toNat_xor, hdouble, Nat.mod_eq_of_lt (by omega)]
  next =>
    rw [BitVec.toNat_setWidth, hdouble, Nat.mod_eq_of_lt (by omega)]

/-- `xtime` as a shift and a reduction that depends on the top bit alone. -/
theorem xtime_eq (prim : BitVec 9) (e : Byte) :
    xtime prim e = (e <<< 1) ^^^ (if e.msb then prim.setWidth 8 else 0) := by
  have hshift : (e.setWidth 9 <<< 1).setWidth 8 = e <<< 1 := by
    apply BitVec.eq_of_toNat_eq
    simp only [BitVec.toNat_setWidth, BitVec.toNat_shiftLeft, Nat.shiftLeft_eq]
    omega
  have htop : 255 < (e.setWidth 9 <<< 1).toNat ↔ e.msb = true := by
    rw [BitVec.msb_eq_decide, decide_eq_true_iff, BitVec.toNat_shiftLeft, BitVec.toNat_setWidth,
      Nat.shiftLeft_eq]
    omega
  simp only [xtime, htop, BitVec.setWidth_xor, hshift]
  split
  · rfl
  · rw [BitVec.ofNat_eq_ofNat, BitVec.xor_zero]

/-- Multiplication by alpha distributes over addition (R90, R91). -/
theorem xtime_xor (prim : BitVec 9) (b c : Byte) :
    xtime prim (b ^^^ c) = xtime prim b ^^^ xtime prim c := by
  have hreduce (r : Byte) : (if (b.msb ^^ c.msb) = true then r else 0) =
      (if b.msb then r else 0) ^^^ (if c.msb then r else 0) := by
    cases b.msb <;> cases c.msb <;> simp
  simp only [xtime_eq, BitVec.shiftLeft_xor_distrib, BitVec.msb_xor, hreduce]
  ac_rfl

theorem iterate_xtime_xor (prim : BitVec 9) (k : Nat) (b c : Byte) :
    (xtime prim)^[k] (b ^^^ c) = (xtime prim)^[k] b ^^^ (xtime prim)^[k] c := by
  induction k generalizing b c with
  | zero => rfl
  | succ k ih => rw [Function.iterate_succ_apply, xtime_xor, ih]; rfl

/-! ## The powers of alpha in the spec's words (R91) -/

/-- `scaled` is the iteration of the multiplication by alpha. -/
theorem scaled_eq_iterate (p a k : Nat) : scaled p a k = (timesAlpha p)^[k] a := by
  induction k with
  | zero => rfl
  | succ k ih => rw [scaled, ih, Function.iterate_succ_apply']

theorem scaled_eq_toNat {prim : BitVec 9} (hp : 0x100 ≤ prim.toNat) (a : Byte) (k : Nat) :
    scaled prim.toNat a.toNat k = ((xtime prim)^[k] a).toNat := by
  induction k with
  | zero => rfl
  | succ k ih => rw [scaled, ih, Function.iterate_succ_apply', toNat_xtime hp]

theorem scaled_one_eq_toNat {prim : BitVec 9} (hp : 0x100 ≤ prim.toNat) (k : Nat) :
    scaled prim.toNat 1 k = (alphaPow prim k).toNat :=
  scaled_eq_toNat hp 1 k

theorem scaled_one_eq_one_iff {prim : BitVec 9} (hp : 0x100 ≤ prim.toNat) (k : Nat) :
    scaled prim.toNat 1 k = 1 ↔ alphaPow prim k = 1 := by
  rw [scaled_one_eq_toNat hp]
  exact (BitVec.toNat_inj (y := (1 : Byte)))

/-! ## Primitive polynomials (R95) -/

/-- The test of R95's second wording, as a statement about the powers of alpha. -/
theorem validPowers_iff (prim : BitVec 9) : validPowers (buildExp prim) = true ↔
    (∀ i, 1 ≤ i → i ≤ 254 → alphaPow prim i ≠ 1) ∧ alphaPow prim 255 = 1 := by
  refine ⟨fun hv => ⟨fun _ => alphaPow_ne_one hv, alphaPow_255 hv⟩, fun ⟨hne, h255⟩ => ?_⟩
  rw [validPowers, Bool.and_eq_true, List.all_eq_true, read_buildExp prim (by omega), h255]
  refine ⟨fun i hi => ?_, rfl⟩
  rw [List.mem_range'_1] at hi
  rw [read_buildExp prim (by omega), bne_iff_ne]
  exact fun e => hne i (by omega) (by omega) (BitVec.eq_of_toNat_eq e)

/-- The two wordings of R95 agree: where no earlier power is 1, the powers are pairwise distinct. -/
theorem primitive_iff_validPowers (prim : BitVec 9) : Primitive prim.toNat ↔
    0x100 ≤ prim.toNat ∧ validPowers (buildExp prim) = true := by
  constructor
  · rintro ⟨hp, -, -, hne, h255⟩
    refine ⟨hp, (validPowers_iff prim).mpr ⟨fun i h1 h2 e => ?_, ?_⟩⟩
    · exact hne i h1 h2 ((scaled_one_eq_one_iff hp i).mpr e)
    · exact (scaled_one_eq_one_iff hp 255).mp h255
  · rintro ⟨hp, hv⟩
    have hlt := prim.isLt
    refine ⟨hp, by omega, fun i j hi hij hj e => ?_, fun i h1 h2 e => ?_, ?_⟩
    · rw [scaled_one_eq_toNat hp, scaled_one_eq_toNat hp] at e
      exact alphaPow_injOn hv hi (by omega) hij (BitVec.eq_of_toNat_eq e)
    · exact alphaPow_ne_one hv h1 h2 ((scaled_one_eq_one_iff hp i).mp e)
    · exact (scaled_one_eq_one_iff hp 255).mpr (alphaPow_255 hv)

theorem validPowers_of_primitive {prim : BitVec 9} (h : Primitive prim.toNat) :
    validPowers (buildExp prim) = true :=
  ((primitive_iff_validPowers prim).mp h).2

/-- `GF.BUILD` refuses exactly the operands that are not primitive (R94, R95). -/
theorem not_primRefused_iff (v : Word) : ¬ primRefused v ↔ Primitive v.toNat := by
  by_cases hv : v.toNat ≤ 0x1FF
  · have hnine : (v.setWidth 9).toNat = v.toNat := by rw [BitVec.toNat_setWidth]; omega
    rw [← hnine, primitive_iff_validPowers, hnine]
    simp only [primRefused, not_or, not_lt, Bool.not_eq_false]
    exact ⟨fun ⟨hlow, _, hpow⟩ => ⟨hlow, hpow⟩, fun ⟨hlow, hpow⟩ => ⟨hlow, hv, hpow⟩⟩
  · exact ⟨fun h => absurd (not_or.mp (not_or.mp h).2).1 (by omega), fun h => absurd h.2.1 hv⟩

theorem State.FieldOk.primitive_prim {s : State} (h : s.FieldOk) (hv : s.fvalid = true) :
    Primitive s.prim.toNat := by
  have hwide : (s.prim.setWidth 32).toNat = s.prim.toNat :=
    BitVec.toNat_setWidth_of_le (by omega)
  exact hwide ▸ (not_primRefused_iff _).mp (h.accepted hv)

/-! ## The sixteen primitive polynomials (R95) -/

/-- The 16 values of R95. -/
def primitivePolynomials : List Nat :=
  [0x11D, 0x12B, 0x12D, 0x14D, 0x15F, 0x163, 0x165, 0x169, 0x171, 0x187, 0x18D, 0x1A9, 0x1C3, 0x1CF,
    0x1E7, 0x1F5]

/-- Alpha has order 255 = 3 · 5 · 17: its power 255 is 1, and its powers 85, 51 and 15 are not. -/
def hasOrder255 (p : Nat) : Bool :=
  scaled p 1 255 == 1 && scaled p 1 85 != 1 && scaled p 1 51 != 1 && scaled p 1 15 != 1

theorem dvd_of_dvd_255 : ∀ m ≤ 254, m ∣ 255 → m ∣ 85 ∨ m ∣ 51 ∨ m ∣ 15 := by decide +kernel

/-- The least period of the powers divides 255, and a smaller one would divide 85, 51 or 15. -/
theorem primitive_iff_hasOrder255 {p : Nat} (hp : 0x100 ≤ p) (hp' : p ≤ 0x1FF) :
    Primitive p ↔ hasOrder255 p = true := by
  have hnine : (BitVec.ofNat 9 p).toNat = p := Nat.mod_eq_of_lt (by omega)
  have hperiod (k : Nat) :
      scaled p 1 k = 1 ↔ Function.minimalPeriod (timesAlpha p) 1 ∣ k := by
    rw [scaled_eq_iterate]
    exact Function.isPeriodicPt_iff_minimalPeriod_dvd
  have horder : Primitive p ↔ (∀ i, 1 ≤ i → i ≤ 254 → scaled p 1 i ≠ 1) ∧ scaled p 1 255 = 1 := by
    rw [← hnine, primitive_iff_validPowers, validPowers_iff]
    simp only [← scaled_one_eq_one_iff (hnine.symm ▸ hp : 0x100 ≤ (BitVec.ofNat 9 p).toNat), ne_eq,
      hnine, hp, true_and]
  rw [horder, hasOrder255]
  simp only [Bool.and_eq_true, beq_iff_eq, bne_iff_ne, and_assoc]
  constructor
  · rintro ⟨hne, h255⟩
    exact ⟨h255, hne 85 (by omega) (by omega), hne 51 (by omega) (by omega),
      hne 15 (by omega) (by omega)⟩
  · rintro ⟨h255, h85, h51, h15⟩
    refine ⟨fun i h1 h2 hi => ?_, h255⟩
    simp only [ne_eq, hperiod] at h255 h85 h51 h15 hi
    have hle : Function.minimalPeriod (timesAlpha p) 1 ≤ 254 := (Nat.le_of_dvd h1 hi).trans h2
    rcases dvd_of_dvd_255 _ hle h255 with h | h | h
    · exact h85 h
    · exact h51 h
    · exact h15 h

theorem filter_hasOrder255 :
    (List.range' 0x100 0x100).filter hasOrder255 = primitivePolynomials := by decide +kernel

theorem primitive_iff_mem (p : Nat) : Primitive p ↔ p ∈ primitivePolynomials := by
  rw [← filter_hasOrder255, List.mem_filter, List.mem_range'_1]
  constructor
  · intro h
    have hlow := h.1
    have hhigh := h.2.1
    exact ⟨by omega, (primitive_iff_hasOrder255 hlow hhigh).mp h⟩
  · rintro ⟨hrange, h⟩
    exact (primitive_iff_hasOrder255 (by omega) (by omega)).mpr h

/-- Settles O24: the test of `GF.BUILD` is R95's first wording, and the sixteen values are those that
the test by the prime divisors of 255 leaves of the 256 candidates. -/
theorem sixteenPolynomialsArePrimitive : Obligations.SixteenPolynomialsArePrimitive :=
  fun v => ⟨not_primRefused_iff v, primitive_iff_mem v.toNat⟩

end Sys2Proof.Machine
end

section
/-! The field of a primitive polynomial (R96, R97, R99, R112): on powers of alpha `gf_mul`, `gf_div` and
`gf_pow` add, subtract and multiply exponents, and `gf_mul` is the reduced carry-less product. -/

namespace Sys2Proof.Machine

open Sys2Proof Sys2Proof.Claims

/-! ## Entries of the tables (R92, R93) -/

theorem expAt_buildTables (prim : BitVec 9) {k : Nat} (h : k < 512) :
    (buildTables prim).expAt k = alphaPow prim k :=
  read_buildExp prim h

/-- `LOG[0]` is 0 (R93). -/
@[simp] theorem logAt_buildTables_zero (prim : BitVec 9) : (buildTables prim).logAt 0 = 0 :=
  Mem.read_write_same _ 0 0 (by omega)

@[simp] theorem zero_gfMul (t : Tables) (b : Byte) : gfMul t 0 b = 0 := by simp [gfMul]

@[simp] theorem zero_gfDiv (t : Tables) (b : Byte) : gfDiv t 0 b = 0 := by simp [gfDiv]

section Accepted

variable {prim : BitVec 9} (hv : validPowers (buildExp prim) = true)

include hv

/-! ## Exponents modulo 255 -/

/-- Only the exponent modulo the order of alpha counts. -/
theorem alphaPow_mod_255 (k : Nat) : alphaPow prim (k % 255) = alphaPow prim k :=
  Function.IsPeriodicPt.iterate_mod_apply (alphaPow_255 hv) k

theorem alphaPow_congr {i j : Nat} (h : i % 255 = j % 255) : alphaPow prim i = alphaPow prim j := by
  rw [← alphaPow_mod_255 hv i, h, alphaPow_mod_255 hv j]

/-! ## The product (R96) -/

/-- The product of two powers of alpha adds the exponents. -/
theorem gfMul_alphaPow (i j : Nat) :
    gfMul (buildTables prim) (alphaPow prim i) (alphaPow prim j) = alphaPow prim (i + j) := by
  have hne (k : Nat) : alphaPow prim k ≠ 0 := by
    rw [← alphaPow_mod_255 hv]
    exact alphaPow_ne_zero hv (by omega)
  obtain ⟨hi, _, hi255⟩ := alphaPow_logAt hv (hne i)
  obtain ⟨hj, _, hj255⟩ := alphaPow_logAt hv (hne j)
  rw [gfMul, if_neg (not_or.mpr ⟨hne i, hne j⟩), expAt_buildTables prim (by omega), alphaPow_add, hj,
    ← alphaPow_add, Nat.add_comm, alphaPow_add, hi, ← alphaPow_add, Nat.add_comm]

/-- The product with a power of alpha is that many multiplications by alpha. -/
theorem gfMul_alphaPow_eq_iterate (a : Byte) (k : Nat) :
    gfMul (buildTables prim) a (alphaPow prim k) = (xtime prim)^[k] a := by
  by_cases ha : a = 0
  · rw [ha, zero_gfMul, Function.iterate_fixed (xtime_zero prim)]
  · obtain ⟨i, -, rfl⟩ := exists_alphaPow hv ha
    rw [gfMul_alphaPow hv, Nat.add_comm, alphaPow_add]

theorem gfMul_one (a : Byte) : gfMul (buildTables prim) a 1 = a := by
  rw [gfMul_comm, one_gfMul hv]

theorem gfMul_assoc (a b c : Byte) :
    gfMul (buildTables prim) (gfMul (buildTables prim) a b) c =
      gfMul (buildTables prim) a (gfMul (buildTables prim) b c) := by
  by_cases ha : a = 0
  · simp only [ha, zero_gfMul]
  by_cases hb : b = 0
  · simp only [hb, zero_gfMul, gfMul_zero]
  by_cases hc : c = 0
  · simp only [hc, gfMul_zero]
  obtain ⟨i, -, rfl⟩ := exists_alphaPow hv ha
  obtain ⟨j, -, rfl⟩ := exists_alphaPow hv hb
  obtain ⟨k, -, rfl⟩ := exists_alphaPow hv hc
  simp only [gfMul_alphaPow hv, Nat.add_assoc]

/-- The product distributes over addition, because each multiplication by alpha does. -/
theorem gfMul_xor (a b c : Byte) : gfMul (buildTables prim) a (b ^^^ c) =
    gfMul (buildTables prim) a b ^^^ gfMul (buildTables prim) a c := by
  by_cases ha : a = 0
  · rw [ha, zero_gfMul, zero_gfMul, zero_gfMul, byte_xor_zero]
  · obtain ⟨i, -, rfl⟩ := exists_alphaPow hv ha
    simp only [gfMul_comm _ (alphaPow prim i), gfMul_alphaPow_eq_iterate hv, iterate_xtime_xor]

/-! ## The quotient (R97) -/

/-- The quotient of two powers of alpha subtracts the exponents; 255 keeps the index from going below
0. -/
theorem gfDiv_alphaPow {i j : Nat} (hi : 1 ≤ i ∧ i ≤ 255) (hj : 1 ≤ j ∧ j ≤ 255) :
    gfDiv (buildTables prim) (alphaPow prim i) (alphaPow prim j) = alphaPow prim (255 + i - j) := by
  rw [gfDiv, if_neg (alphaPow_ne_zero hv hi.2), logAt_alphaPow hv hi, logAt_alphaPow hv hj,
    expAt_buildTables prim (by omega)]

theorem gfMul_gfDiv {a : Byte} (ha : a ≠ 0) (b : Byte) :
    gfMul (buildTables prim) a (gfDiv (buildTables prim) b a) = b := by
  by_cases hb : b = 0
  · rw [hb, zero_gfDiv, gfMul_zero]
  obtain ⟨i, hi, rfl⟩ := exists_alphaPow hv ha
  obtain ⟨j, hj, rfl⟩ := exists_alphaPow hv hb
  rw [gfDiv_alphaPow hv hj hi, gfMul_alphaPow hv]
  exact alphaPow_congr hv (by omega)

theorem gfDiv_self {a : Byte} (ha : a ≠ 0) : gfDiv (buildTables prim) a a = 1 := by
  obtain ⟨i, hi, rfl⟩ := exists_alphaPow hv ha
  rw [gfDiv_alphaPow hv hi hi, Nat.add_sub_cancel, alphaPow_255 hv]

/-! ## The power (R99) -/

omit hv in
theorem gfPow_eq_alphaPow (a : Byte) (n : Int) : gfPow (buildTables prim) a n =
    alphaPow prim ((((buildTables prim).logAt a).toNat * n) % 255).toNat :=
  expAt_buildTables prim (by omega)

omit hv in
theorem gfPow_zero (a : Byte) : gfPow (buildTables prim) a 0 = 1 := by
  rw [gfPow_eq_alphaPow, Int.mul_zero]
  rfl

omit hv in
/-- Base 0 takes no part in any test: its logarithm is 0, so every power of it is `EXP[0]`. -/
theorem zero_gfPow (n : Int) : gfPow (buildTables prim) 0 n = 1 := by
  have hlog : ((buildTables prim).logAt 0).toNat = 0 :=
    congrArg BitVec.toNat (logAt_buildTables_zero prim)
  rw [gfPow_eq_alphaPow, hlog, Int.natCast_zero, Int.zero_mul]
  rfl

theorem gfPow_one {a : Byte} (ha : a ≠ 0) : gfPow (buildTables prim) a 1 = a := by
  obtain ⟨hlog, -, -⟩ := alphaPow_logAt hv ha
  rw [gfPow_eq_alphaPow, Int.mul_one]
  refine (alphaPow_congr hv ?_).trans hlog
  omega

/-- Exponents add, whatever their signs. -/
theorem gfPow_add (a : Byte) (m n : Int) : gfPow (buildTables prim) a (m + n) =
    gfMul (buildTables prim) (gfPow (buildTables prim) a m) (gfPow (buildTables prim) a n) := by
  simp only [gfPow_eq_alphaPow, gfMul_alphaPow hv, Int.mul_add]
  exact alphaPow_congr hv (by omega)

end Accepted

/-! ## The product as the reduced carry-less product (R91, R92) -/

/-- The powers 0 to 7 of alpha are the monomials: nothing is reduced below bit 8. -/
theorem alphaPow_eq_twoPow (prim : BitVec 9) {k : Nat} (h : k < 8) :
    alphaPow prim k = BitVec.twoPow 8 k := by
  induction k with
  | zero => rfl
  | succ k ih =>
    have hmsb : (BitVec.twoPow 8 k).msb = false := by
      rw [BitVec.msb_twoPow]
      simp
      omega
    have hstep : alphaPow prim (k + 1) = xtime prim (alphaPow prim k) :=
      Function.iterate_succ_apply' _ _ _
    rw [hstep, ih (by omega), xtime_eq, hmsb, if_neg (by decide), byte_xor_zero, BitVec.twoPow_eq,
      BitVec.twoPow_eq, BitVec.shiftLeft_add]

/-- The polynomial of the terms of `b` below `x^n`. -/
def lowTerms (b : Byte) (n : Nat) : Byte := (b.setWidth n).setWidth 8

theorem lowTerms_zero (b : Byte) : lowTerms b 0 = 0 := by
  rw [lowTerms, BitVec.of_length_zero (x := b.setWidth 0)]
  rfl

theorem lowTerms_eight (b : Byte) : lowTerms b 8 = b := by
  simp [lowTerms]

theorem lowTerms_succ (b : Byte) (n : Nat) : lowTerms b (n + 1) =
    lowTerms b n ^^^ (if b.getLsbD n then BitVec.twoPow 8 n else 0) := by
  refine BitVec.eq_of_getLsbD_eq fun i hi => ?_
  have hbit : (if b.getLsbD n then BitVec.twoPow 8 n else 0).getLsbD i =
      (b.getLsbD n && decide (i = n)) := by
    cases b.getLsbD n <;> simp [hi]
  rw [BitVec.getLsbD_xor, hbit, lowTerms, lowTerms, BitVec.getLsbD_setWidth, BitVec.getLsbD_setWidth,
    BitVec.getLsbD_setWidth, BitVec.getLsbD_setWidth, decide_eq_true hi]
  by_cases hin : i = n
  · subst hin; simp
  · have hlt : i < n + 1 ↔ i < n := by omega
    simp [hin, hlt]

/-- The product with the terms of `b` below `x^n` is the xor of R91's multiples of `a`. -/
theorem toNat_gfMul_lowTerms {prim : BitVec 9} (h : Primitive prim.toNat) (a b : Byte) {n : Nat}
    (hn : n ≤ 8) : (gfMul (buildTables prim) a (lowTerms b n)).toNat =
      (List.range n).foldl
        (fun acc k => if b.toNat.testBit k then acc ^^^ scaled prim.toNat a.toNat k else acc) 0 := by
  induction n with
  | zero => rw [lowTerms_zero, gfMul_zero]; rfl
  | succ n ih =>
    have hv := validPowers_of_primitive h
    rw [List.range_succ, List.foldl_append, ← ih (by omega), List.foldl_cons, List.foldl_nil,
      lowTerms_succ, gfMul_xor hv, ← alphaPow_eq_twoPow prim (by omega), BitVec.toNat_xor,
      scaled_eq_toNat h.1, BitVec.testBit_toNat]
    cases b.getLsbD n with
    | true => rw [if_pos rfl, if_pos rfl, gfMul_alphaPow_eq_iterate hv]
    | false => rw [if_neg (by decide), if_neg (by decide), gfMul_zero]; exact Nat.xor_zero _

/-- `gf_mul` is the carry-less product reduced modulo the polynomial of the tables. -/
theorem toNat_gfMul {prim : BitVec 9} (h : Primitive prim.toNat) (a b : Byte) :
    (gfMul (buildTables prim) a b).toNat = fieldProduct prim.toNat a.toNat b.toNat := by
  have hall := toNat_gfMul_lowTerms h a b (n := 8) le_rfl
  rwa [lowTerms_eight] at hall

/-- Settles O31: exponents add, so one more exponent is one more product and the negated exponent gives
the inverse. -/
theorem gfPowIsThePowerInTheField : Obligations.GfPowIsThePowerInTheField := by
  intro p hp a n t
  have hv := validPowers_of_primitive hp
  refine ⟨fun ha => ⟨gfPow_zero a, ?_, ?_⟩, zero_gfPow n⟩
  · rw [gfPow_add hv, gfPow_one hv ha]
  · rw [← gfPow_add hv, Int.add_right_neg, gfPow_zero]

end Sys2Proof.Machine
end

section
/-! The commands of the field unit (R94, R101 to R111): the checks that they share, what each completes
with, and their statements. -/

namespace Sys2Proof.Machine

open Sys2Proof Sys2Proof.Claims

/-! ## The shared checks (R111) -/

theorem noField_fst (s : State) : (noField s).1 = false ↔ s.fvalid = true := by
  simp [noField]

theorem needByte_fst (s : State) (a : XReg) : (needByte s a).1 = false ↔ xv s a ≤ 255 := by
  simp [needByte, xv]

/-- One element operand, the tables built: no condition holds. -/
theorem fieldChecks_pass {s : State} {a : XReg} (hv : s.fvalid = true) (ha : xv s a ≤ 255) :
    firstCause [noField s, needByte s a] = none := by
  simp only [firstCause_eq_none, List.forall_mem_cons, noField_fst, needByte_fst]
  exact ⟨hv, ha, by simp⟩

/-- Two element operands, the tables built: no condition holds. -/
theorem fieldChecks_pass_both {s : State} {a b : XReg} (hv : s.fvalid = true) (ha : xv s a ≤ 255)
    (hb : xv s b ≤ 255) : firstCause [noField s, needByte s a, needByte s b] = none := by
  simp only [firstCause_eq_none, List.forall_mem_cons, noField_fst, needByte_fst]
  exact ⟨hv, ha, hb, by simp⟩

/-! ## Operands and results (R111) -/

section Operand

variable {s : State} {a : XReg} (ha : xv s a ≤ 255)

include ha

theorem toNat_byteX : (s.byteX a).toNat = xv s a := by
  rw [State.byteX, BitVec.toNat_setWidth]
  exact Nat.mod_eq_of_lt (Nat.lt_succ_of_le ha)

theorem byteX_eq_zero_iff : s.byteX a = 0 ↔ xv s a = 0 := by
  rw [← toNat_byteX ha]
  exact (BitVec.toNat_inj (y := (0 : Byte))).symm

theorem ext8_byteX : ext8 (s.byteX a) = s.getX a := by
  apply BitVec.eq_of_toNat_eq
  rw [ext8, BitVec.toNat_setWidth, toNat_byteX ha]
  exact Nat.mod_eq_of_lt (s.getX a).isLt

end Operand

theorem ext8_xor (v w : Byte) : ext8 (v ^^^ w) = ext8 v ^^^ ext8 w := BitVec.setWidth_xor

theorem ext8_eq_ofNat (v : Byte) : ext8 v = BitVec.ofNat 32 v.toNat := (BitVec.ofNat_toNat 32 v).symm

theorem ext8_ofNat {n : Nat} (h : n ≤ 255) : ext8 (BitVec.ofNat 8 n) = BitVec.ofNat 32 n := by
  rw [ext8_eq_ofNat, BitVec.toNat_ofNat, Nat.mod_eq_of_lt (by omega)]

/-- A byte result is written zero-extended, and nothing else changes. -/
theorem next_setXByte {s : State} {d : XReg} {v : Byte} {w : Word} (h : ext8 v = w) :
    (.next (s.setXByte d v) : Result) = .next { s with x := s.x.write d w } :=
  h ▸ rfl

/-! ## What each command completes with -/

section Completes

variable {s : State} {a b : XReg} (d : XReg) (hv : s.fvalid = true)

include hv

theorem exec_gfAdd_completes (ha : xv s a ≤ 255) (hb : xv s b ≤ 255) :
    exec (.gfAdd d a b) s = .next (s.setXByte d (s.byteX a ^^^ s.byteX b)) := by
  have arm : exec (.gfAdd d a b) s = execGfAdd d a b s := rfl
  rw [arm, execGfAdd, attempt_of_none (fieldChecks_pass_both hv ha hb)]

theorem exec_gfSub_completes (ha : xv s a ≤ 255) (hb : xv s b ≤ 255) :
    exec (.gfSub d a b) s = .next (s.setXByte d (s.byteX a ^^^ s.byteX b)) := by
  have arm : exec (.gfSub d a b) s = execGfSub d a b s := rfl
  rw [arm, execGfSub, attempt_of_none (fieldChecks_pass_both hv ha hb)]

theorem exec_gfMul_completes (ha : xv s a ≤ 255) (hb : xv s b ≤ 255) :
    exec (.gfMul d a b) s = .next (s.setXByte d (gfMul s.tab (s.byteX a) (s.byteX b))) := by
  have arm : exec (.gfMul d a b) s = execGfMul d a b s := rfl
  rw [arm, execGfMul, attempt_of_none (fieldChecks_pass_both hv ha hb)]

theorem exec_gfDiv_completes (ha : xv s a ≤ 255) (hb : xv s b ≤ 255) (hne : xv s b ≠ 0) :
    exec (.gfDiv d a b) s = .next (s.setXByte d (gfDiv s.tab (s.byteX a) (s.byteX b))) := by
  have arm : exec (.gfDiv d a b) s = execGfDiv d a b s := rfl
  have hpass : firstCause [noField s, needByte s a, needByte s b,
      raises .divideByZero (s.getX b = 0)] = none := by
    simp only [firstCause_eq_none, List.forall_mem_cons, noField_fst, needByte_fst, raises_fst,
      decide_eq_false_iff_not]
    exact ⟨hv, ha, hb, fun e => hne (congrArg BitVec.toNat e), by simp⟩
  rw [arm, execGfDiv, attempt_of_none hpass]

/-- The divisor is tested before the dividend is looked at (R104). -/
theorem exec_gfDiv_faults (ha : xv s a ≤ 255) (hzero : xv s b = 0) :
    Faults (.gfDiv d a b) s .divideByZero := by
  have hb : s.getX b = 0 := BitVec.eq_of_toNat_eq hzero
  have hle : xv s b ≤ 255 := by omega
  have arm : exec (.gfDiv d a b) s = execGfDiv d a b s := rfl
  have hcause : firstCause [noField s, needByte s a, needByte s b,
      raises .divideByZero (s.getX b = 0)] = some .divideByZero := by
    simp [(noField_fst s).mpr hv, (needByte_fst s a).mpr ha, (needByte_fst s b).mpr hle, hb]
  exact arm.trans (attempt_of_some hcause)

theorem exec_gfSum_completes (ha : xv s a ≤ 255) :
    exec (.gfSum d a b) s = .next (s.setXByte d (gfSum (s.byteX a) (xv s b))) := by
  have arm : exec (.gfSum d a b) s = execGfSum d a b s := rfl
  rw [arm, execGfSum, attempt_of_none (fieldChecks_pass hv ha)]
  rfl

theorem exec_gfPow_completes (ha : xv s a ≤ 255) :
    exec (.gfPow d a b) s = .next (s.setXByte d (gfPow s.tab (s.byteX a) (s.getX b).toInt)) := by
  have arm : exec (.gfPow d a b) s = execGfPow d a b s := rfl
  rw [arm, execGfPow, attempt_of_none (fieldChecks_pass hv ha)]

theorem exec_gfLog_completes (ha : xv s a ≤ 255) :
    exec (.gfLog d a) s = .next (s.setXByte d (s.tab.logAt (s.byteX a))) := by
  have arm : exec (.gfLog d a) s = execGfLog d a s := rfl
  rw [arm, execGfLog, attempt_of_none (fieldChecks_pass hv ha)]

theorem exec_gfExp_completes (ha : xv s a ≤ 511) :
    exec (.gfExp d a) s = .next (s.setXByte d (s.tab.expAt (xv s a))) := by
  have arm : exec (.gfExp d a) s = execGfExp d a s := rfl
  have hpass : firstCause [noField s, raises .operandRange (511 < (s.getX a).toNat)] = none := by
    simp only [firstCause_eq_none, List.forall_mem_cons, noField_fst, raises_fst,
      decide_eq_false_iff_not, not_lt]
    exact ⟨hv, ha, by simp⟩
  rw [arm, execGfExp, attempt_of_none hpass]
  rfl

theorem exec_gfMullog_completes (ha : xv s a ≤ 255) (hb : xv s b ≤ 255) :
    exec (.gfMullog d a b) s = .next (s.setXByte d (mulLog (s.byteX a) (s.byteX b))) := by
  have arm : exec (.gfMullog d a b) s = execGfMullog d a b s := rfl
  rw [arm, execGfMullog, attempt_of_none (fieldChecks_pass_both hv ha hb)]

theorem exec_gfDivlog_completes (ha : xv s a ≤ 255) (hb : xv s b ≤ 255) :
    exec (.gfDivlog d a b) s = .next (s.setXByte d (divLog (s.byteX a) (s.byteX b))) := by
  have arm : exec (.gfDivlog d a b) s = execGfDivlog d a b s := rfl
  rw [arm, execGfDivlog, attempt_of_none (fieldChecks_pass_both hv ha hb)]

end Completes

/-! ## Sums (R101, R102, R105) -/

/-- Settles O28: the xor and the choice by parity commute with the zero extension. -/
theorem gfAddSubAndSumWriteTheirResult : Obligations.GfAddSubAndSumWriteTheirResult := by
  intro d a b s hv ha
  refine ⟨fun hb => ?_, ?_⟩
  · have hxor : ext8 (s.byteX a ^^^ s.byteX b) = s.getX a ^^^ s.getX b := by
      rw [ext8_xor, ext8_byteX ha, ext8_byteX hb]
    rw [exec_gfAdd_completes d hv ha hb, exec_gfSub_completes d hv ha hb]
    exact ⟨next_setXByte hxor, next_setXByte hxor⟩
  · rw [exec_gfSum_completes d hv ha]
    refine next_setXByte ?_
    rw [gfSum, apply_ite ext8, ext8_byteX ha]
    rfl

/-! ## Products and quotients (R103, R104) -/

/-- Settles O29: the table forms of `gf_mul` and `gf_div`, and the divisor's test. -/
theorem gfMulAndDivReadTheTables : Obligations.GfMulAndDivReadTheTables := by
  intro d a b s hv ha hb
  refine ⟨?_, fun hne => ?_, exec_gfDiv_faults d hv ha⟩
  · rw [exec_gfMul_completes d hv ha hb]
    refine next_setXByte ?_
    simp only [gfMul, byteX_eq_zero_iff ha, byteX_eq_zero_iff hb, Tables.expAt, Tables.logAt,
      toNat_byteX ha, toNat_byteX hb, apply_ite ext8]
    rfl
  · rw [exec_gfDiv_completes d hv ha hb hne]
    refine next_setXByte ?_
    simp only [gfDiv, byteX_eq_zero_iff ha, Tables.expAt, Tables.logAt, toNat_byteX ha,
      toNat_byteX hb, apply_ite ext8]
    rfl

/-- Settles O27: the tables are those of a primitive `PRIM`, whose `gf_mul` is the reduced carry-less
product. -/
theorem gfMulWritesTheReducedCarrylessProduct :
    Obligations.GfMulWritesTheReducedCarrylessProduct := by
  intro d a b s hfield hv ha hb
  rw [exec_gfMul_completes d hv ha hb]
  refine next_setXByte ?_
  rw [ext8_eq_ofNat, hfield.tables hv, toNat_gfMul (hfield.primitive_prim hv), toNat_byteX ha, toNat_byteX hb]

/-! ## Powers and table entries (R106 to R108) -/

/-- Settles O30: 255 is positive, so the model's modulus is the floor modulus of R99. -/
theorem gfPowLogAndExpReadTheTables : Obligations.GfPowLogAndExpReadTheTables := by
  intro d a b s hv
  refine ⟨fun ha => ⟨?_, ?_⟩, fun ha => ?_⟩
  · rw [exec_gfPow_completes d hv ha]
    refine next_setXByte ?_
    rw [gfPow, Tables.expAt, Tables.logAt, toNat_byteX ha, Int.fmod_eq_emod_of_nonneg _ (by decide)]
  · rw [exec_gfLog_completes d hv ha]
    refine next_setXByte ?_
    rw [Tables.logAt, toNat_byteX ha]
  · rw [exec_gfExp_completes d hv ha]
    rfl

/-! ## Logarithms (R109, R110) -/

/-- Settles O32: one subtraction brings the sum, at most 510, and the difference, above 255 exactly for a
larger dividend, back to a byte. -/
theorem gfMullogAndDivlogReduceOnce : Obligations.GfMullogAndDivlogReduceOnce := by
  intro d a b s hv ha hb
  rw [exec_gfMullog_completes d hv ha hb, exec_gfDivlog_completes d hv ha hb]
  refine ⟨next_setXByte ?_, next_setXByte ?_⟩
  · simp only [mulLog, toNat_byteX ha, toNat_byteX hb]
    exact ext8_ofNat (by split <;> omega)
  · have hsum : 255 < 255 + xv s a - xv s b ↔ xv s b < xv s a := by omega
    have hdiff : 255 + xv s a - xv s b - 255 = xv s a - xv s b := by omega
    simp only [divLog, toNat_byteX ha, toNat_byteX hb, hsum, hdiff]
    exact ext8_ofNat (by split <;> omega)

/-! ## `GF.BUILD` (R94) -/

theorem logAt_expAt {prim : BitVec 9} (hv : validPowers (buildExp prim) = true) {i : Nat}
    (hi : 1 ≤ i ∧ i ≤ 255) :
    ((buildTables prim).log.read ((buildTables prim).exp.read i).toNat).toNat = i :=
  (congrArg (fun e => ((buildTables prim).logAt e).toNat) (expAt_buildTables prim (by omega))).trans
    (logAt_alphaPow hv hi)

/-- `GF.BUILD` of a primitive polynomial, with no tables built (R94). -/
theorem exec_gfBuild_completes {a : XReg} {s : State} (hv : s.fvalid = false)
    (hp : Primitive (xv s a)) : exec (.gfBuild a) s = .next (s.buildField ((s.getX a).setWidth 9)) := by
  have arm : exec (.gfBuild a) s = execGfBuild a s := rfl
  have hpass : firstCause [raises .sequence (s.fvalid = true),
      raises .primitivePoly (primRefused (s.getX a))] = none := by
    simp only [firstCause_eq_none, List.forall_mem_cons, raises_fst, decide_eq_false_iff_not]
    exact ⟨by simp [hv], (not_primRefused_iff _).mpr hp, by simp⟩
  rw [arm, execGfBuild, attempt_of_none hpass]
  rfl

/-- `GF.BUILD` succeeds once between resets (R94). -/
theorem exec_gfBuild_faults_built {a : XReg} {s : State} (hv : s.fvalid = true) :
    Faults (.gfBuild a) s .sequence := by
  have arm : exec (.gfBuild a) s = execGfBuild a s := rfl
  have hcause : firstCause [raises .sequence (s.fvalid = true),
      raises .primitivePoly (primRefused (s.getX a))] = some .sequence := by
    rw [firstCause_cons, raises_fst, decide_eq_true hv, if_pos rfl, raises_snd]
  exact arm.trans (attempt_of_some hcause)

theorem exec_gfBuild_faults_refused {a : XReg} {s : State} (hv : s.fvalid = false)
    (hp : ¬ Primitive (xv s a)) : Faults (.gfBuild a) s .primitivePoly := by
  have arm : exec (.gfBuild a) s = execGfBuild a s := rfl
  have hrefused : primRefused (s.getX a) := not_not.mp fun h => hp ((not_primRefused_iff _).mp h)
  have hbuilt : ¬ s.fvalid = true := by simp [hv]
  have hcause : firstCause [raises .sequence (s.fvalid = true),
      raises .primitivePoly (primRefused (s.getX a))] = some .primitivePoly := by
    rw [firstCause_cons, raises_fst, decide_eq_false hbuilt, if_neg (by decide), firstCause_cons,
      raises_fst, decide_eq_true hrefused, if_pos rfl, raises_snd]
  exact arm.trans (attempt_of_some hcause)

/-- Settles O25: the two faults in R264's order, and the tables of the accepted polynomial. -/
theorem gfBuildBuildsTheTablesOfAPrimitivePolynomial :
    Obligations.GfBuildBuildsTheTablesOfAPrimitivePolynomial := by
  intro a s
  refine ⟨exec_gfBuild_faults_built, exec_gfBuild_faults_refused, fun hv hp => ?_⟩
  · have hnine : ((s.getX a).setWidth 9).toNat = xv s a := by
      have hle : xv s a ≤ 0x1FF := hp.2.1
      rw [BitVec.toNat_setWidth]
      exact Nat.mod_eq_of_lt (Nat.lt_succ_of_le hle)
    have hprim : Primitive ((s.getX a).setWidth 9).toNat := hnine.symm ▸ hp
    refine ⟨buildTables ((s.getX a).setWidth 9), ?_, fun i hi => ?_, fun i h1 h2 => ?_, ?_⟩
    · rw [exec_gfBuild_completes hv hp, xv, BitVec.ofNat_toNat]
      rfl
    · rw [← hnine, scaled_one_eq_toNat hprim.1]
      exact congrArg BitVec.toNat (expAt_buildTables _ hi)
    · exact logAt_expAt (validPowers_of_primitive hprim) ⟨h1, h2⟩
    · exact logAt_buildTables_zero _

/-! ## The field axioms (R112) -/

/-- Settles O26: on powers of alpha the laws are those of the exponents; distributivity comes from
`xtime`. -/
theorem builtTablesSatisfyTheFieldAxioms : Obligations.BuiltTablesSatisfyTheFieldAxioms := by
  refine ⟨fun d x s hv hx => ?_, fun p hp a b c => ?_⟩
  · have hself : ext8 (s.byteX x ^^^ s.byteX x) = 0 := by rw [BitVec.xor_self]; rfl
    rw [exec_gfAdd_completes d hv hx hx, exec_gfSub_completes d hv hx hx]
    exact ⟨next_setXByte hself, next_setXByte hself⟩
  · have hv := validPowers_of_primitive hp
    refine ⟨gfMul_comm _ a b, fun ha => gfMul_gfDiv hv ha b, fun ha => ?_, gfMul_assoc hv a b c,
      gfMul_xor hv a b c, gfMul_one hv a, gfDiv_self hv, fun i h1 h2 => logAt_expAt hv ⟨h1, h2⟩, ?_⟩
    · obtain ⟨hpow, -, hle⟩ := alphaPow_logAt hv ha
      exact (expAt_buildTables p (Nat.lt_of_le_of_lt hle (by decide))).trans hpow
    · exact logAt_one hv

end Sys2Proof.Machine
end

section
/-! The laws of `xorSum`, the finite sum of the field (R90), and the loops that accumulate one. -/

namespace Sys2Proof.Machine

open Sys2Proof Sys2Proof.Claims

variable {f g : Nat → Byte} {m n : Nat}

@[simp] theorem xorSum_zero (f : Nat → Byte) : xorSum 0 f = 0 := rfl

theorem xorSum_succ (n : Nat) (f : Nat → Byte) : xorSum (n + 1) f = xorSum n f ^^^ f n := by
  rw [xorSum, List.range_succ, List.foldl_append]
  rfl

theorem xorSum_congr (h : ∀ i < n, f i = g i) : xorSum n f = xorSum n g := by
  induction n with
  | zero => rfl
  | succ n ih => rw [xorSum_succ, xorSum_succ, ih fun i hi => h i (by omega), h n (by omega)]

/-- Terms that are 0 may be added at the end. -/
theorem xorSum_extend (hmn : m ≤ n) (h : ∀ i < n, m ≤ i → f i = 0) : xorSum n f = xorSum m f := by
  induction n, hmn using Nat.le_induction with
  | base => rfl
  | succ n hmn ih =>
    rw [xorSum_succ, h n (by omega) hmn, byte_xor_zero, ih fun i hi => h i (by omega)]

theorem xorSum_eq_zero (h : ∀ i < n, f i = 0) : xorSum n f = 0 :=
  xorSum_extend (Nat.zero_le n) fun i hi _ => h i hi

/-- A sum with one term at most. -/
theorem xorSum_single {a : Nat} (g : Nat → Byte) :
    xorSum n (fun i => if i = a then g i else 0) = if a < n then g a else 0 := by
  induction n with
  | zero => rfl
  | succ n ih =>
    rw [xorSum_succ, ih]
    by_cases ha : n = a
    · subst ha; rw [if_neg (by omega), if_pos rfl, if_pos (by omega), byte_zero_xor]
    · rw [if_neg ha, byte_xor_zero]
      exact if_congr (by omega) rfl rfl

theorem xorSum_xor (n : Nat) (f g : Nat → Byte) :
    xorSum n (fun i => f i ^^^ g i) = xorSum n f ^^^ xorSum n g := by
  induction n with
  | zero => exact (byte_xor_zero 0).symm
  | succ n ih => simp only [xorSum_succ, ih]; ac_rfl

/-- The first term taken out. -/
theorem xorSum_succ_front (n : Nat) (f : Nat → Byte) :
    xorSum (n + 1) f = f 0 ^^^ xorSum n fun i => f (i + 1) := by
  induction n with
  | zero => rw [xorSum_succ, xorSum_zero, xorSum_zero, BitVec.xor_comm]
  | succ n ih => rw [xorSum_succ, ih, xorSum_succ, BitVec.xor_assoc]

/-- The product distributes over a sum, in the tables of an accepted polynomial. -/
theorem gfMul_xorSum {prim : BitVec 9} (hv : validPowers (buildExp prim) = true) (c : Byte) (n : Nat)
    (f : Nat → Byte) : gfMul (buildTables prim) c (xorSum n f) =
      xorSum n fun i => gfMul (buildTables prim) c (f i) := by
  induction n with
  | zero => exact gfMul_zero _ c
  | succ n ih => rw [xorSum_succ, xorSum_succ, gfMul_xor hv, ih]

/-- A conditional term added is the conditional addition of it. -/
theorem xor_if_ne_zero (r c v : Byte) :
    (if c ≠ 0 then r ^^^ v else r) = r ^^^ if c = 0 then 0 else v := by
  by_cases hc : c = 0
  · rw [if_neg (not_not.mpr hc), if_pos hc, byte_xor_zero]
  · rw [if_pos hc, if_neg hc]

/-- A loop whose turn `i` adds `g i` to a reading of the accumulator adds the sum of them. -/
theorem forUpTo_adds {σ : Type} (read : σ → Byte) (step : σ → Nat → σ) (g : Nat → Byte)
    (h : ∀ acc i, read (step acc i) = read acc ^^^ g i) (n : Nat) (init : σ) :
    read (forUpTo n init step) = read init ^^^ xorSum (n + 1) g := by
  induction n with
  | zero => rw [forUpTo_zero, h, xorSum_succ, xorSum_zero, byte_zero_xor]
  | succ n ih => rw [forUpTo_succ, h, ih, xorSum_succ (n + 1), BitVec.xor_assoc]

end Sys2Proof.Machine
end

section
/-! `P.MUL` (R128): each turn of the outer loop adds one row of products. -/

namespace Sys2Proof.Machine

open Sys2Proof Sys2Proof.Claims

/-- Turn `i` of the outer loop of R128: the left coefficient `i` times the right polynomial, to order
`n`. -/
def mulRow (t : Tables) (l r : PolyReg) (n : Nat) (q : PolyReg) (i : Nat) : PolyReg :=
  if i ≤ n then accumulate q i (min r.deg (n - i)) fun j => gfMul t (l.coef i) (r.coef j) else q

theorem polyMul_eq (t : Tables) (l r : PolyReg) (n : Nat) (dst : PolyReg) :
    polyMul t l r n dst = forUpTo l.deg (dst.withCoefs n fun _ => 0) (mulRow t l r n) := rfl

theorem ord_mulRow (t : Tables) (l r : PolyReg) (n : Nat) (q : PolyReg) (i : Nat) :
    (mulRow t l r n q i).ord = q.ord := by
  rw [mulRow]
  split
  · exact ord_accumulate ..
  · rfl

theorem ord_polyMul (t : Tables) (l r : PolyReg) (n : Nat) (dst : PolyReg) :
    (polyMul t l r n dst).ord = dst.ord :=
  forUpTo_induct (fun q => q.ord = dst.ord) l.deg (dst.withCoefs n fun _ => 0) (mulRow t l r n) rfl
    fun q i _ h => (ord_mulRow t l r n q i).trans h

/-- The term of row `i` at `x^k`, in a product to order `n`. -/
def rowTerm (t : Tables) (l r : PolyReg) (n k i : Nat) : Byte :=
  if i ≤ k ∧ k ≤ n ∧ k - i ≤ r.deg then gfMul t (l.coef i) (r.coef (k - i)) else 0

theorem rowTerm_eq_zero (t : Tables) (l r : PolyReg) {n k i : Nat} (h : k < i ∨ n < k) :
    rowTerm t l r n k i = 0 :=
  if_neg (by omega)

theorem coef_mulRow (t : Tables) (l r : PolyReg) {n : Nat} (hn : n < 256) (q : PolyReg) (k i : Nat) :
    (mulRow t l r n q i).coef k = q.coef k ^^^ rowTerm t l r n k i := by
  rw [mulRow, rowTerm]
  split
  next hi =>
    rw [coef_accumulate _ _ _ (by omega)]
    exact congrArg _ (if_congr (by omega) rfl rfl)
  next hi => rw [if_neg (by omega), byte_xor_zero]

/-- R128's result, for every destination order `n`. -/
theorem coef_polyMul (t : Tables) (l r dst : PolyReg) {n k : Nat} (hn : n < 256) (hk : k < 256) :
    (polyMul t l r n dst).coef k = if k ≤ n then productCoef t l r k else dst.coef k := by
  rw [polyMul_eq, forUpTo_adds (·.coef k) _ _ (fun q => coef_mulRow t l r hn q k),
    PolyReg.coef_withCoefs _ _ _ hk]
  split
  next hkn =>
    have hterms : xorSum (l.deg + 1) (rowTerm t l r n k) = productCoef t l r k :=
      calc xorSum (l.deg + 1) (rowTerm t l r n k)
          = xorSum (l.deg + 1) fun i => if i ≤ l.deg then rowTerm t l r n k i else 0 :=
            xorSum_congr fun i hi => (if_pos (by omega)).symm
        _ = xorSum (l.deg + 1 + k) fun i => if i ≤ l.deg then rowTerm t l r n k i else 0 :=
            (xorSum_extend (by omega) fun i _ hi => if_neg (by omega)).symm
        _ = xorSum (k + 1) fun i => if i ≤ l.deg then rowTerm t l r n k i else 0 :=
            xorSum_extend (by omega) fun i _ hi => by rw [rowTerm_eq_zero t l r (.inl hi), ite_self]
        _ = productCoef t l r k := xorSum_congr fun i hi => by
            rw [rowTerm, ← ite_and]
            exact if_congr (by omega) rfl rfl
    rw [hterms, byte_zero_xor]
  next hkn =>
    rw [xorSum_eq_zero fun i _ => rowTerm_eq_zero t l r (.inr (by omega)), byte_xor_zero]

theorem exec_pMul_completes {d a b : PReg} {s : State} (hv : s.fvalid = true) (ha : d ≠ a) (hb : d ≠ b) :
    exec (.pMul d a b) s =
      .next (s.setP d (polyMul s.tab (s.getP a) (s.getP b) (s.getP d).deg (s.getP d))) := by
  have arm : exec (.pMul d a b) s = execPMul d a b s := rfl
  have hpass : firstCause [noField s, noAlias d a, noAlias d b] = none := by
    simp only [firstCause_eq_none, List.forall_mem_cons, noField_fst, noAlias, raises_fst,
      decide_eq_false_iff_not]
    exact ⟨hv, ha, hb, by simp⟩
  rw [arm, execPMul, attempt_of_none hpass]

/-- Settles O34: the rows add up to the product, truncated to the destination's order. -/
theorem pMulIsTheTruncatedProduct : Obligations.PMulIsTheTruncatedProduct :=
  fun _ _ _ s hv ha hb => ⟨_, exec_pMul_completes hv ha hb, ord_polyMul ..,
    fun _ hk => coef_polyMul s.tab _ _ _ (PolyReg.deg_lt _) hk⟩

end Sys2Proof.Machine
end

section
/-! Logarithms of products and quotients (R100) and `P.MOD` (R129): a turn of the long division subtracts
the divisor times one quotient coefficient, which cancels the coefficient it starts from. -/

namespace Sys2Proof.Machine

open Sys2Proof Sys2Proof.Claims

/-! ## `mullog` and `divlog` on logarithms (R100) -/

theorem toNat_mulLog (l r : Byte) : (mulLog l r).toNat =
    if 255 < l.toNat + r.toNat then l.toNat + r.toNat - 255 else l.toNat + r.toNat := by
  have hl := l.isLt
  have hr := r.isLt
  rw [mulLog, BitVec.toNat_ofNat]
  split <;> omega

theorem toNat_divLog {l r : Byte} (hr : 1 ≤ r.toNat) : (divLog l r).toNat =
    if r.toNat < l.toNat then l.toNat - r.toNat else 255 + l.toNat - r.toNat := by
  have hl := l.isLt
  have hlt := r.isLt
  rw [divLog, BitVec.toNat_ofNat]
  split <;> split <;> omega

section Accepted

variable {prim : BitVec 9} (hv : validPowers (buildExp prim) = true)

include hv

theorem alphaPow_ne_zero_all (k : Nat) : alphaPow prim k ≠ 0 := by
  rw [← alphaPow_mod_255 hv]
  exact alphaPow_ne_zero hv (by omega)

theorem gfMul_ne_zero {a b : Byte} (ha : a ≠ 0) (hb : b ≠ 0) : gfMul (buildTables prim) a b ≠ 0 := by
  obtain ⟨i, -, rfl⟩ := exists_alphaPow hv ha
  obtain ⟨j, -, rfl⟩ := exists_alphaPow hv hb
  rw [gfMul_alphaPow hv]
  exact alphaPow_ne_zero_all hv _

/-- The logarithm of a power is the exponent in 1..255 that is congruent to it. -/
theorem logAt_eq_of_congr {l : Byte} {k : Nat} (hl : 1 ≤ l.toNat) (h : k % 255 = l.toNat % 255) :
    (buildTables prim).logAt (alphaPow prim k) = l := by
  apply BitVec.eq_of_toNat_eq
  have hlt := l.isLt
  rw [alphaPow_congr hv h, logAt_alphaPow hv (by omega)]

theorem logAt_gfMul {a b : Byte} (ha : a ≠ 0) (hb : b ≠ 0) :
    (buildTables prim).logAt (gfMul (buildTables prim) a b) =
      mulLog ((buildTables prim).logAt a) ((buildTables prim).logAt b) := by
  obtain ⟨i, hi, rfl⟩ := exists_alphaPow hv ha
  obtain ⟨j, hj, rfl⟩ := exists_alphaPow hv hb
  have hlog := toNat_mulLog ((buildTables prim).logAt (alphaPow prim i))
    ((buildTables prim).logAt (alphaPow prim j))
  rw [logAt_alphaPow hv hi, logAt_alphaPow hv hj] at hlog
  rw [gfMul_alphaPow hv]
  exact logAt_eq_of_congr hv (by rw [hlog]; split <;> omega) (by rw [hlog]; split <;> omega)

theorem logAt_gfDiv {a b : Byte} (ha : a ≠ 0) (hb : b ≠ 0) :
    (buildTables prim).logAt (gfDiv (buildTables prim) a b) =
      divLog ((buildTables prim).logAt a) ((buildTables prim).logAt b) := by
  obtain ⟨i, hi, rfl⟩ := exists_alphaPow hv ha
  obtain ⟨j, hj, rfl⟩ := exists_alphaPow hv hb
  have hlog := toNat_divLog (l := (buildTables prim).logAt (alphaPow prim i))
    (r := (buildTables prim).logAt (alphaPow prim j)) (by rw [logAt_alphaPow hv hj]; exact hj.1)
  rw [logAt_alphaPow hv hi, logAt_alphaPow hv hj] at hlog
  rw [gfDiv_alphaPow hv hi hj]
  exact logAt_eq_of_congr hv (by rw [hlog]; split <;> omega) (by rw [hlog]; split <;> omega)

theorem gfDiv_ne_zero {a b : Byte} (ha : a ≠ 0) (hb : b ≠ 0) : gfDiv (buildTables prim) a b ≠ 0 := by
  obtain ⟨i, hi, rfl⟩ := exists_alphaPow hv ha
  obtain ⟨j, hj, rfl⟩ := exists_alphaPow hv hb
  rw [gfDiv_alphaPow hv hi hj]
  exact alphaPow_ne_zero_all hv _

end Accepted

/-- What the evaluators and the division add for a coefficient `c`, zero or not: its product with the
element whose logarithm is given (R96). -/
theorem expAt_logAt_add {t : Tables} {b : Byte} (hb : b ≠ 0) (c : Byte) :
    (if c = 0 then 0 else t.expAt ((t.logAt c).toNat + (t.logAt b).toNat)) = gfMul t c b := by
  rw [gfMul]
  exact if_congr (or_iff_left hb).symm rfl rfl

/-! ## One turn of the division -/

theorem PolyReg.withCoef_self (q : PolyReg) (k : Nat) : q.withCoef k (q.coef k) = q := by
  have hsame : q.c.write k (q.c.read k) = q.c := by
    refine Mem.ext_read fun j hj => ?_
    by_cases hkj : k = j
    · subst hkj; exact Mem.read_write_same _ _ _ hj
    · exact Mem.read_write_ne _ _ hkj
  exact congrArg (fun c => ({ q with c := c } : PolyReg)) hsame

/-- The divisor scaled by `c` and subtracted from `rem` at `x^i` downwards (R129). -/
def subtractScaled (t : Tables) (divisor : PolyReg) (c : Byte) (rem : PolyReg) (i : Nat) : PolyReg :=
  accumulate rem (i - divisor.deg) divisor.deg fun j => gfMul t c (divisor.coef j)

/-- The quotient coefficient that cancels the coefficient `c` of the dividend (R129). -/
def quotientCoef (t : Tables) (divisor : PolyReg) (c : Byte) : Byte :=
  gfDiv t c (divisor.coef divisor.deg)

/-- The polynomial at `x^k` that one quotient term `c x^e` contributes. -/
def scaledTerm (t : Tables) (divisor : PolyReg) (c : Byte) (e k : Nat) : Byte :=
  if k - e ≤ divisor.deg then gfMul t c (divisor.coef (k - e)) else 0

theorem coef_subtractScaled (t : Tables) (divisor : PolyReg) (c : Byte) (rem : PolyReg) {i : Nat}
    (k : Nat) (hi : divisor.deg ≤ i ∧ i < 256) :
    (subtractScaled t divisor c rem i).coef k = rem.coef k ^^^
      if i - divisor.deg ≤ k then scaledTerm t divisor c (i - divisor.deg) k else 0 := by
  rw [subtractScaled, coef_accumulate _ _ _ (by omega), scaledTerm, ← ite_and]
  exact congrArg _ (if_congr (by omega) rfl rfl)

section Divided

variable {prim : BitVec 9} (hv : validPowers (buildExp prim) = true) {divisor : PolyReg}
  (hlead : divisor.coef divisor.deg ≠ 0)

include hv hlead

theorem polyModStep_of_ne_zero {rem : PolyReg} {i : Nat} (hi : divisor.deg ≤ i) (hc : rem.coef i ≠ 0) :
    polyModStep (buildTables prim) divisor ((buildTables prim).logAt (divisor.coef divisor.deg)) rem i =
      subtractScaled (buildTables prim) divisor
        (quotientCoef (buildTables prim) divisor (rem.coef i)) rem i := by
  have hquot : quotientCoef (buildTables prim) divisor (rem.coef i) ≠ 0 := gfDiv_ne_zero hv hc hlead
  have hindex (j : Nat) : j + i - divisor.deg = i - divisor.deg + j := by omega
  rw [polyModStep, if_pos hc, subtractScaled, accumulate]
  refine congrArg (forUpTo divisor.deg rem) (funext fun q => funext fun j => ?_)
  rw [← logAt_gfDiv hv hc hlead, hindex, gfMul_comm, ← expAt_logAt_add hquot]
  by_cases hj : divisor.coef j = 0
  · rw [if_neg (not_not.mpr hj), if_pos hj, byte_xor_zero, PolyReg.withCoef_self]
  · rw [if_pos hj, if_neg hj]
    rfl

/-- A turn subtracts the scaled divisor, also where it does nothing: the scale is then 0. -/
theorem coef_polyModStep (rem : PolyReg) {i : Nat} (k : Nat) (hi : divisor.deg ≤ i ∧ i < 256) :
    (polyModStep (buildTables prim) divisor ((buildTables prim).logAt (divisor.coef divisor.deg))
      rem i).coef k = rem.coef k ^^^
        if i - divisor.deg ≤ k then
          scaledTerm (buildTables prim) divisor
            (quotientCoef (buildTables prim) divisor (rem.coef i)) (i - divisor.deg) k
        else 0 := by
  by_cases hc : rem.coef i = 0
  · rw [polyModStep, if_neg (not_not.mpr hc), hc, quotientCoef, zero_gfDiv, scaledTerm, zero_gfMul,
      ite_self, ite_self, byte_xor_zero]
  · rw [polyModStep_of_ne_zero hv hlead hi.1 hc, coef_subtractScaled _ _ _ _ _ hi]

/-- The turn at `i` makes the coefficient `i` 0. -/
theorem coef_polyModStep_same (rem : PolyReg) {i : Nat} (hi : divisor.deg ≤ i ∧ i < 256) :
    (polyModStep (buildTables prim) divisor ((buildTables prim).logAt (divisor.coef divisor.deg))
      rem i).coef i = 0 := by
  rw [coef_polyModStep hv hlead rem i hi, if_pos (by omega), scaledTerm, if_pos (by omega),
    Nat.sub_sub_self hi.1, gfMul_comm, quotientCoef, gfMul_gfDiv hv hlead, BitVec.xor_self]
  rfl

theorem ord_polyModStep (rem : PolyReg) {i : Nat} (hi : divisor.deg ≤ i) :
    (polyModStep (buildTables prim) divisor ((buildTables prim).logAt (divisor.coef divisor.deg))
      rem i).ord = rem.ord := by
  by_cases hc : rem.coef i = 0
  · rw [polyModStep, if_neg (not_not.mpr hc)]
  · rw [polyModStep_of_ne_zero hv hlead hi hc]
    exact ord_accumulate ..

/-- The turn at `i` leaves the coefficients above `i`. -/
theorem coef_polyModStep_above (rem : PolyReg) {i k : Nat} (hi : divisor.deg ≤ i ∧ i < 256)
    (hk : i < k) :
    (polyModStep (buildTables prim) divisor ((buildTables prim).logAt (divisor.coef divisor.deg))
      rem i).coef k = rem.coef k := by
  have hbeyond : ¬ k - (i - divisor.deg) ≤ divisor.deg := by omega
  rw [coef_polyModStep hv hlead rem k hi, scaledTerm, if_neg hbeyond, ite_self, byte_xor_zero]

end Divided

/-! ## The whole division -/

/-- A loop down from `m + n - 1` to `m`: what holds at its start, and what each turn carries from `k + 1`
turns left to `k` turns left, holds at its end with no turn left. -/
theorem foldl_down_induct {σ : Type} (P : Nat → σ → Prop) (f : σ → Nat → σ) (m : Nat)
    {n : Nat} (hs : ∀ k < n, ∀ acc, P (k + 1) acc → P k (f acc (m + k))) {init : σ} (h0 : P n init) :
    P 0 ((List.range' m n).reverse.foldl f init) := by
  induction n generalizing init with
  | zero => exact h0
  | succ n ih =>
    rw [List.range'_1_concat, List.reverse_append, List.foldl_append]
    exact ih (fun k hk => hs k (by omega)) (hs n (Nat.lt_succ_self n) init h0)

/-- What is added to both summands cancels. -/
theorem byte_xor_xor_cancel (a b c : Byte) : a ^^^ c ^^^ (b ^^^ c) = a ^^^ b :=
  calc a ^^^ c ^^^ (b ^^^ c) = a ^^^ b ^^^ (c ^^^ c) := by ac_rfl
    _ = a ^^^ b := by rw [BitVec.xor_self]; exact byte_xor_zero _

/-- The quotient times the divisor, at `x^k`. -/
def quotientProduct (t : Tables) (divisor : PolyReg) (quot : Nat → Byte) (k : Nat) : Byte :=
  xorSum (k + 1) fun i => scaledTerm t divisor (quot i) i k

/-- One more quotient term, where the quotient had none. -/
theorem quotientProduct_update (t : Tables) (divisor : PolyReg) {quot : Nat → Byte} {e : Nat}
    (he : quot e = 0) (c : Byte) (k : Nat) :
    quotientProduct t divisor (Function.update quot e c) k =
      quotientProduct t divisor quot k ^^^ if e ≤ k then scaledTerm t divisor c e k else 0 := by
  have hterm (i : Nat) : scaledTerm t divisor (Function.update quot e c i) i k =
      scaledTerm t divisor (quot i) i k ^^^ if i = e then scaledTerm t divisor c i k else 0 := by
    by_cases hie : i = e
    · subst hie
      rw [Function.update_self, he, if_pos rfl, scaledTerm, scaledTerm, zero_gfMul, ite_self,
        byte_zero_xor]
    · rw [Function.update_of_ne hie, if_neg hie, byte_xor_zero]
  rw [quotientProduct, xorSum_congr fun i _ => hterm i, xorSum_xor, xorSum_single]
  exact congrArg _ (if_congr Nat.lt_succ_iff rfl rfl)

/-- R129's loop with the turns at `divisor.deg + left - 1` down to `divisor.deg` still to run: `rem` is the
dividend less the quotient found so far times the divisor, and the coefficients passed are 0. -/
structure Dividing (t : Tables) (dividend divisor dst : PolyReg) (left : Nat) (rem : PolyReg) : Prop where
  ord : rem.ord = dst.ord
  above : ∀ k < 256, dividend.deg < k → rem.coef k = dst.coef k
  passed : ∀ k, divisor.deg + left ≤ k → k ≤ dividend.deg → rem.coef k = 0
  quotient : ∃ quot : Nat → Byte,
    (∀ i, i < left ∨ dividend.deg < divisor.deg + i → quot i = 0) ∧
    ∀ k ≤ dividend.deg, dividend.coef k = rem.coef k ^^^ quotientProduct t divisor quot k

/-- The turn at `divisor.deg + left` takes up the quotient term at `x^left`. -/
theorem Dividing.step {prim : BitVec 9} (hv : validPowers (buildExp prim) = true)
    {dividend divisor dst rem : PolyReg} {left : Nat} (hlead : divisor.coef divisor.deg ≠ 0)
    (hleft : divisor.deg + left ≤ dividend.deg)
    (h : Dividing (buildTables prim) dividend divisor dst (left + 1) rem) :
    Dividing (buildTables prim) dividend divisor dst left
      (polyModStep (buildTables prim) divisor
        ((buildTables prim).logAt (divisor.coef divisor.deg)) rem (divisor.deg + left)) := by
  have hdeg := dividend.deg_lt
  have hi : divisor.deg ≤ divisor.deg + left ∧ divisor.deg + left < 256 := by omega
  constructor
  case ord => rw [ord_polyModStep hv hlead rem hi.1, h.ord]
  case above =>
    intro k hk hdk
    rw [coef_polyModStep_above hv hlead rem hi (by omega), h.above k hk hdk]
  case passed =>
    intro k hlow hk
    rcases Nat.eq_or_lt_of_le hlow with e | hlt
    · rw [← e, coef_polyModStep_same hv hlead rem hi]
    · rw [coef_polyModStep_above hv hlead rem hi hlt, h.passed k (by omega) hk]
  case quotient =>
    obtain ⟨quot, hzero, hdividend⟩ := h.quotient
    refine ⟨Function.update quot left
      (quotientCoef (buildTables prim) divisor (rem.coef (divisor.deg + left))), ?_, fun k hk => ?_⟩
    · intro i hout
      rw [Function.update_of_ne (by omega), hzero i (by omega)]
    · rw [coef_polyModStep hv hlead rem k hi, Nat.add_sub_cancel_left,
        quotientProduct_update _ _ (hzero left (by omega)), hdividend k hk]
      exact (byte_xor_xor_cancel _ _ _).symm

/-- Before the first turn the quotient is 0 and the remainder is the dividend. -/
theorem Dividing.start (t : Tables) (dividend divisor dst : PolyReg) :
    Dividing t dividend divisor dst (dividend.deg + 1 - divisor.deg)
      (dst.withCoefs dividend.deg dividend.coef) := by
  have hdeg := dividend.deg_lt
  constructor
  case ord => rfl
  case above => exact fun k hk hdk => by rw [PolyReg.coef_withCoefs _ _ _ hk, if_neg (by omega)]
  case passed => omega
  case quotient =>
    refine ⟨fun _ => 0, fun _ _ => rfl, fun k hk => ?_⟩
    have hproduct : quotientProduct t divisor (fun _ => 0) k = 0 :=
      xorSum_eq_zero fun i _ => by rw [scaledTerm, zero_gfMul, ite_self]
    rw [hproduct, byte_xor_zero, PolyReg.coef_withCoefs _ _ _ (by omega), if_pos hk]

theorem dividing_polyMod {prim : BitVec 9} (hv : validPowers (buildExp prim) = true)
    (dividend dst : PolyReg) {divisor : PolyReg} (hlead : divisor.coef divisor.deg ≠ 0) :
    Dividing (buildTables prim) dividend divisor dst 0
      (polyMod (buildTables prim) dividend divisor dst) :=
  foldl_down_induct (Dividing (buildTables prim) dividend divisor dst) _ divisor.deg
    (fun left hleft _ h => h.step hv hlead (by omega)) (.start _ dividend divisor dst)

theorem exec_pMod_completes {d a b : PReg} {s : State} (hv : s.fvalid = true) (hne : d ≠ b)
    (hdeg : (s.getP a).deg ≤ (s.getP d).deg) (hlead : (s.getP b).coef (s.getP b).deg ≠ 0) :
    exec (.pMod d a b) s = .next (s.setP d (polyMod s.tab (s.getP a) (s.getP b) (s.getP d))) := by
  have arm : exec (.pMod d a b) s = execPMod d a b s := rfl
  have hpass : firstCause [noField s, noAlias d b, raises .capacity ((s.getP d).deg < (s.getP a).deg),
      raises .divideByZero ((s.getP b).coef (s.getP b).deg = 0)] = none := by
    simp only [firstCause_eq_none, List.forall_mem_cons, noField_fst, noAlias, raises_fst,
      decide_eq_false_iff_not, not_lt]
    exact ⟨hv, hne, hdeg, hlead, by simp⟩
  rw [arm, execPMod, attempt_of_none hpass]

/-- Settles O35: the loop has passed every coefficient from the divisor's order on. -/
theorem pModLeavesTheRemainderOfTheDivision : Obligations.PModLeavesTheRemainderOfTheDivision := by
  intro d a b s hfield hv hne hdeg hlead
  have hvalid := hfield.validPowers_prim hv
  have done := dividing_polyMod hvalid (s.getP a) (s.getP d) hlead
  rw [← hfield.tables hv] at done
  obtain ⟨quot, hzero, hdividend⟩ := done.quotient
  refine ⟨_, quot, exec_pMod_completes hv hne hdeg hlead, done.ord, done.above, done.passed,
    fun i hi => hzero i (.inr hi), fun k hk => ?_⟩
  have hbelow : (if k < (s.getP b).deg then
      (polyMod s.tab (s.getP a) (s.getP b) (s.getP d)).coef k else 0) =
        (polyMod s.tab (s.getP a) (s.getP b) (s.getP d)).coef k := by
    by_cases hkb : k < (s.getP b).deg
    · exact if_pos hkb
    · rw [if_neg hkb, done.passed k (by omega) hk]
  rw [hbelow]
  exact hdividend k hk

end Sys2Proof.Machine
end

section
/-! The commands of the polynomial unit that move data, and those whose result is a formula of their
operands (R122 to R127, R130, R133 to R135, R138). -/

namespace Sys2Proof.Machine

open Sys2Proof Sys2Proof.Claims

/-! ## Data movement (R122 to R127, R138) -/

theorem exec_pSetord_completes (d : PReg) {n : Nat} (s : State) (hn : n ≤ 255) :
    exec (.pSetord d n) s = .next (s.setP d ((s.getP d).withOrd n)) := by
  have arm : exec (.pSetord d n) s = execPSetord d n s := rfl
  have hpass : firstCause [raises .operandRange (255 < n)] = none := by
    simp only [firstCause_eq_none, List.forall_mem_cons, raises_fst, decide_eq_false_iff_not, not_lt]
    exact ⟨hn, by simp⟩
  rw [arm, execPSetord, attempt_of_none hpass]

theorem exec_pLdc_completes (d : PReg) {a b : XReg} {s : State} (ha : xv s a ≤ 255) (hb : xv s b ≤ 255) :
    exec (.pLdc d a b) s = .next (s.setP d ((s.getP d).withCoef (xv s a) (s.byteX b))) := by
  have arm : exec (.pLdc d a b) s = execPLdc d a b s := rfl
  have hpass : firstCause [needByte s a, needByte s b] = none := by
    simp only [firstCause_eq_none, List.forall_mem_cons, needByte_fst]
    exact ⟨ha, hb, by simp⟩
  rw [arm, execPLdc, attempt_of_none hpass]
  rfl

theorem exec_pStc_completes (d : XReg) (a : PReg) {b : XReg} {s : State} (hb : xv s b ≤ 255) :
    exec (.pStc d a b) s = .next (s.setXByte d ((s.getP a).coef (xv s b))) := by
  have arm : exec (.pStc d a b) s = execPStc d a b s := rfl
  have hpass : firstCause [needByte s b] = none := by
    simp only [firstCause_eq_none, List.forall_mem_cons, needByte_fst]
    exact ⟨hb, by simp⟩
  rw [arm, execPStc, attempt_of_none hpass]
  rfl

/-- Clearing all 256 coefficients leaves the memory of zeros (R126). -/
theorem withCoefs_zero_eq_fill (q : PolyReg) :
    q.withCoefs 255 (fun _ => 0) = { q with c := Mem.fill 256 0 } := by
  have hclear : (q.withCoefs 255 fun _ => 0).c = Mem.fill 256 0 := Mem.ext_read fun k hk => by
    rw [Mem.read_fill _ hk]
    exact (PolyReg.coef_withCoefs q 255 _ hk).trans (if_pos (by omega))
  exact congrArg (fun c => ({ q with c := c } : PolyReg)) hclear

theorem byteX_eq_ofNat (s : State) (a : XReg) : s.byteX a = BitVec.ofNat 8 (xv s a) := rfl

/-- Settles O33: each move either has no condition, or its operands are in range. -/
theorem polynomialMovesWriteWhatTheirRulesList : Obligations.PolynomialMovesWriteWhatTheirRulesList := by
  intro s d a x y n idx val
  refine ⟨exec_pSetord_completes d s, rfl, fun hx hy => ?_, exec_pStc_completes x a, ?_, rfl, rfl⟩
  · rw [exec_pLdc_completes d hx hy, byteX_eq_ofNat]
    rfl
  · have arm : exec (.pClr d) s = .next (s.setP d ((s.getP d).withCoefs 255 fun _ => 0)) := rfl
    rw [arm, withCoefs_zero_eq_fill]
    rfl

/-! ## The derivative (R130) -/

theorem deg_polyDer (src dst : PolyReg) : (polyDer src dst).deg = src.deg - 1 := by
  have hdeg := src.deg_lt
  rw [polyDer]
  split
  next h => rw [h]; rfl
  next h => exact deg_withOrd dst (by omega)

theorem coef_polyDer (src dst : PolyReg) {k : Nat} (hk : k < 256) : (polyDer src dst).coef k =
    if k ≤ src.deg - 1 then (if src.deg ≠ 0 ∧ k % 2 = 0 then src.coef (k + 1) else 0)
    else dst.coef k := by
  rw [polyDer]
  split
  next h =>
    rw [PolyReg.coef_withCoefs _ _ _ hk, h, if_neg (not_and.mpr fun h0 => absurd rfl h0)]
    rfl
  next h =>
    rw [PolyReg.coef_withCoefs _ _ _ hk, gfSum]
    have hparity : (k + 1) % 2 = 1 ↔ src.deg ≠ 0 ∧ k % 2 = 0 := by omega
    simp only [hparity]
    rfl

/-- Settles O36: the repeated sum keeps the coefficients of odd index and cancels the others. -/
theorem pDerIsTheFormalDerivative : Obligations.PDerIsTheFormalDerivative := by
  intro d a s
  have arm : exec (.pDer d a) s = execPDer d a s := rfl
  refine ⟨fun heq => ?_, fun hne => ⟨_, ?_, deg_polyDer _ _, fun _ => coef_polyDer _ _⟩⟩
  · have hcause : firstCause [noAlias d a] = some .aliased := by simp [noAlias, heq]
    exact arm.trans (attempt_of_some hcause)
  · have hpass : firstCause [noAlias d a] = none := by simp [noAlias, hne]
    exact arm.trans (attempt_of_none hpass)

/-! ## Evaluation by a power table and in log form (R133 to R135) -/

/-- The loop of the evaluators: a term is added for each coefficient that is not 0. -/
theorem forUpTo_adds_of_ne_zero (c v : Nat → Byte) (n : Nat) :
    forUpTo n 0 (fun r i => if c i ≠ 0 then r ^^^ v i else r) =
      xorSum (n + 1) fun i => if c i = 0 then 0 else v i :=
  (forUpTo_adds id _ _ (fun r i => xor_if_ne_zero r (c i) (v i)) n 0).trans (byte_zero_xor _)

theorem polyEvalPowers_eq (t : Tables) (q w : PolyReg) : polyEvalPowers t q w =
    if w.coef 0 = 0 then q.coef 0
    else xorSum (q.deg + 1) fun i =>
      if q.coef i = 0 then 0 else t.expAt ((t.logAt (q.coef i)).toNat + (w.coef i).toNat) := by
  rw [polyEvalPowers]
  exact if_congr Iff.rfl rfl (forUpTo_adds_of_ne_zero q.coef _ q.deg)

theorem polyEvalLog_eq (t : Tables) (q w : PolyReg) : polyEvalLog t q w =
    if w.coef 0 = 0 then (if q.coef 0 = 0 then 0 else t.expAt (q.coef 0).toNat)
    else xorSum (q.deg + 1) fun i =>
      if q.coef i = 0 then 0 else t.expAt ((q.coef i).toNat + (w.coef i).toNat) := by
  rw [polyEvalLog]
  exact if_congr Iff.rfl rfl (forUpTo_adds_of_ne_zero q.coef _ q.deg)

theorem ord_polyToLog (t : Tables) (src dst : PolyReg) : (polyToLog t src dst).ord = src.ord := by
  rw [polyToLog, PolyReg.ord_withCoefs, PolyReg.ord_withOrd, PolyReg.deg, BitVec.ofNat_toNat,
    BitVec.setWidth_eq]

theorem coef_polyToLog (t : Tables) (src dst : PolyReg) {k : Nat} (hk : k < 256) :
    (polyToLog t src dst).coef k = if k ≤ src.deg then t.logAt (src.coef k) else dst.coef k :=
  PolyReg.coef_withCoefs _ _ _ hk

section Completes

variable {s : State} (hv : s.fvalid = true)

include hv

/-- The tables built and the power table long enough: no condition holds. -/
theorem powersChecks_pass {a b : PReg} (hdeg : (s.getP a).deg ≤ (s.getP b).deg) :
    firstCause [noField s, raises .capacity ((s.getP b).deg < (s.getP a).deg)] = none := by
  simp only [firstCause_eq_none, List.forall_mem_cons, noField_fst, raises_fst, decide_eq_false_iff_not,
    not_lt]
  exact ⟨hv, hdeg, by simp⟩

theorem exec_pEvalp_completes (d : XReg) {a b : PReg} (hdeg : (s.getP a).deg ≤ (s.getP b).deg) :
    exec (.pEvalp d a b) s = .next (s.setXByte d (polyEvalPowers s.tab (s.getP a) (s.getP b))) := by
  have arm : exec (.pEvalp d a b) s = execPEvalp d a b s := rfl
  rw [arm, execPEvalp, attempt_of_none (powersChecks_pass hv hdeg)]

theorem exec_pEvall_completes (d : XReg) {a b : PReg} (hdeg : (s.getP a).deg ≤ (s.getP b).deg) :
    exec (.pEvall d a b) s = .next (s.setXByte d (polyEvalLog s.tab (s.getP a) (s.getP b))) := by
  have arm : exec (.pEvall d a b) s = execPEvall d a b s := rfl
  rw [arm, execPEvall, attempt_of_none (powersChecks_pass hv hdeg)]

theorem exec_pTolog_completes (d a : PReg) :
    exec (.pTolog d a) s = .next (s.setP d (polyToLog s.tab (s.getP a) (s.getP d))) := by
  have arm : exec (.pTolog d a) s = execPTolog d a s := rfl
  have hpass : firstCause [noField s] = none := by simp [(noField_fst s).mpr hv]
  rw [arm, execPTolog, attempt_of_none hpass]

end Completes

/-- Settles O39: the loops are sums, and the conversion reads its operand before it writes. -/
theorem pEvalpEvallAndTologFollowTheirFormulas : Obligations.PEvalpEvallAndTologFollowTheirFormulas := by
  intro s x d a b hv
  refine ⟨fun hdeg => ⟨?_, ?_⟩, _, exec_pTolog_completes hv d a, ord_polyToLog _ _ _,
    fun k hk => coef_polyToLog _ _ _ hk⟩
  · rw [exec_pEvalp_completes hv x hdeg]
    exact next_setXByte (congrArg ext8 (polyEvalPowers_eq _ _ _))
  · rw [exec_pEvall_completes hv x hdeg]
    exact next_setXByte (congrArg ext8 (polyEvalLog_eq _ _ _))

end Sys2Proof.Machine
end

section
/-! Evaluation (R121, R131, R132, R136): the powers of the element are kept as their logarithms, so each
term is a product, and the sum of them is Horner's value. -/

namespace Sys2Proof.Machine

open Sys2Proof Sys2Proof.Claims

/-! ## Powers in log form (R121) -/

/-- The exponent that R121 and R131 keep: 255, then one `mullog` with `l` for each next power. -/
def powerLog (l : Byte) : Nat → Byte
  | 0 => 255
  | k + 1 => mulLog (powerLog l k) l

/-- Entry `k` of the power table of `v` (R121). -/
def powerEntry (t : Tables) (v : Byte) (k : Nat) : Byte := if v = 0 then 0 else powerLog (t.logAt v) k

/-- The closed form of R121, for a logarithm of a non-zero element. -/
theorem toNat_powerLog {l : Byte} (hl : 1 ≤ l.toNat) (k : Nat) :
    ((powerLog l k).toNat : Int) = Int.fmod ((k : Int) * l.toNat - 1) 255 + 1 := by
  have hlt := l.isLt
  rw [Int.fmod_eq_emod_of_nonneg _ (by decide)]
  induction k with
  | zero => rw [Int.natCast_zero, Int.zero_mul]; rfl
  | succ k ih =>
    rw [powerLog, toNat_mulLog, Int.natCast_succ, Int.add_mul, Int.one_mul]
    generalize (k : Int) * l.toNat = product at ih ⊢
    split <;> omega

section Accepted

variable {prim : BitVec 9} (hv : validPowers (buildExp prim) = true)

include hv

theorem elementPower_ne_zero {v : Byte} (h : v ≠ 0) (k : Nat) :
    elementPower (buildTables prim) v k ≠ 0 := by
  induction k with
  | zero => exact (by decide : (1 : Byte) ≠ 0)
  | succ k ih => exact gfMul_ne_zero hv ih h

theorem powerLog_eq_logAt {v : Byte} (h : v ≠ 0) (k : Nat) :
    powerLog ((buildTables prim).logAt v) k =
      (buildTables prim).logAt (elementPower (buildTables prim) v k) := by
  induction k with
  | zero => exact (BitVec.eq_of_toNat_eq (logAt_one hv)).symm
  | succ k ih => rw [powerLog, ih, elementPower, logAt_gfMul hv (elementPower_ne_zero hv h k) h]

theorem expAt_logAt {v : Byte} (h : v ≠ 0) :
    (buildTables prim).expAt ((buildTables prim).logAt v).toNat = v := by
  obtain ⟨hpow, -, hle⟩ := alphaPow_logAt hv h
  rw [expAt_buildTables prim (by omega), hpow]

end Accepted

/-! ## The value of a polynomial (R131) -/

/-- A turn of R131's loop on the sum and the exponent. -/
def evalStep (t : Tables) (q : PolyReg) (l : Byte) (acc : Byte × Byte) (i : Nat) : Byte × Byte :=
  (if q.coef i ≠ 0 then acc.1 ^^^ t.expAt ((t.logAt (q.coef i)).toNat + acc.2.toNat) else acc.1,
   mulLog acc.2 l)

/-- The term that a turn of R131's loop adds. -/
def evalTerm (t : Tables) (q : PolyReg) (l : Byte) (i : Nat) : Byte :=
  if q.coef i = 0 then 0 else t.expAt ((t.logAt (q.coef i)).toNat + (powerLog l i).toNat)

/-- A turn keeps the exponent at the power and adds the term. -/
theorem evalStep_powerLog (t : Tables) (q : PolyReg) (l r : Byte) (i : Nat) :
    evalStep t q l (r, powerLog l i) i = (r ^^^ evalTerm t q l i, powerLog l (i + 1)) :=
  Prod.ext (xor_if_ne_zero r (q.coef i) _) rfl

theorem forUpTo_evalStep (t : Tables) (q : PolyReg) (l : Byte) (n : Nat) :
    forUpTo n (0, 255) (evalStep t q l) = (xorSum (n + 1) (evalTerm t q l), powerLog l (n + 1)) := by
  induction n with
  | zero => exact evalStep_powerLog t q l 0 0
  | succ n ih => rw [forUpTo_succ, ih, evalStep_powerLog, xorSum_succ (n + 1)]

theorem polyEval_of_ne_zero (t : Tables) (q : PolyReg) {v : Byte} (h : v ≠ 0) :
    polyEval t q v = xorSum (q.deg + 1) (evalTerm t q (t.logAt v)) :=
  (if_neg h).trans (congrArg Prod.fst (forUpTo_evalStep t q (t.logAt v) q.deg))

/-- The value of a polynomial: the coefficients times the powers of the element. -/
def polyValue (t : Tables) (n : Nat) (c : Nat → Byte) (v : Byte) : Byte :=
  xorSum n fun i => gfMul t (c i) (elementPower t v i)

section Accepted

variable {prim : BitVec 9} (hv : validPowers (buildExp prim) = true)

include hv

/-- A term of R131 is the product of the coefficient and the power of the element. -/
theorem evalTerm_eq_gfMul (q : PolyReg) {v : Byte} (h : v ≠ 0) (i : Nat) :
    evalTerm (buildTables prim) q ((buildTables prim).logAt v) i =
      gfMul (buildTables prim) (q.coef i) (elementPower (buildTables prim) v i) := by
  rw [evalTerm, powerLog_eq_logAt hv h, expAt_logAt_add (elementPower_ne_zero hv h i)]

/-- The model's evaluator gives the value; at 0 only the term with `0^0 = 1` is left. -/
theorem polyEval_eq_polyValue (q : PolyReg) (v : Byte) : polyEval (buildTables prim) q v =
    polyValue (buildTables prim) (q.deg + 1) q.coef v := by
  by_cases h : v = 0
  · have hhigh : ∀ i < q.deg, gfMul (buildTables prim) (q.coef (i + 1))
        (elementPower (buildTables prim) v (i + 1)) = 0 := fun i _ => by
      rw [elementPower, h, gfMul_zero, gfMul_zero]
    rw [polyEval, if_pos h, polyValue, xorSum_succ_front, xorSum_eq_zero hhigh, elementPower,
      gfMul_one hv, byte_xor_zero]
  · rw [polyEval_of_ne_zero _ q h]
    exact xorSum_congr fun i _ => evalTerm_eq_gfMul hv q h i

/-- Multiplication by the element shifts the coefficients up by one. -/
theorem gfMul_polyValue (n : Nat) (c : Nat → Byte) (v : Byte) :
    gfMul (buildTables prim) v (polyValue (buildTables prim) n c v) =
      xorSum n fun i => gfMul (buildTables prim) (c i) (elementPower (buildTables prim) v (i + 1)) := by
  rw [polyValue, gfMul_xorSum hv]
  exact xorSum_congr fun i _ => by rw [gfMul_comm, gfMul_assoc hv]; rfl

/-- Horner's value is the value of the polynomial. -/
theorem horner_eq_polyValue (q : PolyReg) (v : Byte) (n m : Nat) : horner (buildTables prim) q v n m =
    polyValue (buildTables prim) n (fun i => q.coef (m + i)) v := by
  induction n generalizing m with
  | zero => rfl
  | succ n ih =>
    have hshift (i : Nat) : m + 1 + i = m + (i + 1) := by omega
    rw [horner, ih, gfMul_comm, gfMul_polyValue hv, polyValue, xorSum_succ_front, elementPower,
      gfMul_one hv, BitVec.xor_comm]
    simp only [hshift, Nat.add_zero]

end Accepted

theorem exec_pEval_completes (d : XReg) (a : PReg) {b : XReg} {s : State} (hv : s.fvalid = true)
    (hb : xv s b ≤ 255) :
    exec (.pEval d a b) s = .next (s.setXByte d (polyEval s.tab (s.getP a) (s.byteX b))) := by
  have arm : exec (.pEval d a b) s = execPEval d a b s := rfl
  rw [arm, execPEval, attempt_of_none (fieldChecks_pass hv hb)]

/-- Settles O37: the terms of the loop are products with powers of the element. -/
theorem pEvalIsTheValueOfThePolynomial : Obligations.PEvalIsTheValueOfThePolynomial := by
  intro d a b s hfield hv hb
  have hvalid := hfield.validPowers_prim hv
  refine ⟨_, exec_pEval_completes d a hv hb, ?_, ?_⟩ <;>
    rw [hfield.tables hv, polyEval_eq_polyValue hvalid]
  · rfl
  · rw [horner_eq_polyValue hvalid]
    simp only [Nat.zero_add, byteX_eq_ofNat]

/-! ## The power table (R132) -/

/-- A turn of R132's loop on the register and the exponent. -/
def powsStep (t : Tables) (v : Byte) (acc : PolyReg × Byte) (i : Nat) : PolyReg × Byte :=
  if v = 0 then (acc.1.withCoef i 0, acc.2) else (acc.1.withCoef i acc.2, mulLog acc.2 (t.logAt v))

theorem polyPows_eq (t : Tables) (v : Byte) (dst : PolyReg) :
    polyPows t v dst = (forUpTo dst.deg (dst, 255) (powsStep t v)).1 := rfl

/-- R132's loop after `n` turns: the first `n` entries are written, and the exponent is the next one. -/
structure PowersDone (t : Tables) (v : Byte) (dst : PolyReg) (n : Nat) (acc : PolyReg × Byte) : Prop where
  ord : acc.1.ord = dst.ord
  coef : ∀ k < 256, acc.1.coef k = if k < n then powerEntry t v k else dst.coef k
  exponent : v ≠ 0 → acc.2 = powerLog (t.logAt v) n

theorem PowersDone.start (t : Tables) (v : Byte) (dst : PolyReg) : PowersDone t v dst 0 (dst, 255) where
  ord := rfl
  coef := fun _ _ => (if_neg (by omega)).symm
  exponent := fun _ => rfl

/-- The entry that a turn writes is the next one of the power table. -/
theorem PowersDone.powsStep_fst {t : Tables} {v : Byte} {dst : PolyReg} {n : Nat} {acc : PolyReg × Byte}
    (h : PowersDone t v dst n acc) : (powsStep t v acc n).1 = acc.1.withCoef n (powerEntry t v n) := by
  rw [powsStep, powerEntry]
  by_cases hzero : v = 0
  · rw [if_pos hzero, if_pos hzero]
  · rw [if_neg hzero, if_neg hzero, h.exponent hzero]

theorem PowersDone.turn {t : Tables} {v : Byte} {dst : PolyReg} {n : Nat} {acc : PolyReg × Byte}
    (h : PowersDone t v dst n acc) (hn : n < 256) : PowersDone t v dst (n + 1) (powsStep t v acc n) where
  ord := by rw [h.powsStep_fst, PolyReg.ord_withCoef, h.ord]
  coef := fun k hk => by
    rw [h.powsStep_fst, PolyReg.coef_withCoef _ _ _ hn, h.coef k hk]
    rcases Nat.lt_trichotomy k n with hlt | heq | hgt
    · rw [if_neg (by omega), if_pos hlt, if_pos (by omega)]
    · subst heq; rw [if_pos rfl, if_pos (by omega)]
    · rw [if_neg (by omega), if_neg (by omega), if_neg (by omega)]
  exponent := fun hne => by rw [powsStep, if_neg hne, h.exponent hne]; rfl

theorem powersDone_loop (t : Tables) (v : Byte) (dst : PolyReg) {n : Nat} (hn : n < 256) :
    PowersDone t v dst (n + 1) (forUpTo n (dst, 255) (powsStep t v)) := by
  induction n with
  | zero => exact (PowersDone.start t v dst).turn hn
  | succ n ih =>
    rw [forUpTo_succ]
    exact (ih (by omega)).turn hn

theorem ord_polyPows (t : Tables) (v : Byte) (dst : PolyReg) : (polyPows t v dst).ord = dst.ord :=
  (powersDone_loop t v dst dst.deg_lt).ord

theorem coef_polyPows (t : Tables) (v : Byte) (dst : PolyReg) {k : Nat} (hk : k < 256) :
    (polyPows t v dst).coef k = if k ≤ dst.deg then powerEntry t v k else dst.coef k := by
  rw [polyPows_eq, (powersDone_loop t v dst dst.deg_lt).coef k hk]
  exact if_congr Nat.lt_succ_iff rfl rfl

theorem coef_polyPows_of_le (t : Tables) (v : Byte) (dst : PolyReg) {k : Nat} (hk : k ≤ dst.deg) :
    (polyPows t v dst).coef k = powerEntry t v k := by
  rw [coef_polyPows t v dst (Nat.lt_of_le_of_lt hk dst.deg_lt), if_pos hk]

theorem exec_pPows_completes (d : PReg) {a : XReg} {s : State} (hv : s.fvalid = true)
    (ha : xv s a ≤ 255) :
    exec (.pPows d a) s = .next (s.setP d (polyPows s.tab (s.byteX a) (s.getP d))) := by
  have arm : exec (.pPows d a) s = execPPows d a s := rfl
  rw [arm, execPPows, attempt_of_none (fieldChecks_pass hv ha)]

/-- Settles O38: the entries are those of `powerLog`, whose closed form and powers are R121's. -/
theorem pPowsBuildsThePowerTable : Obligations.PPowsBuildsThePowerTable := by
  intro d a s hv ha
  have hentry {k : Nat} (hk : k ≤ (s.getP d).deg) := coef_polyPows_of_le s.tab (s.byteX a) (s.getP d) hk
  have hlog : s.tab.log.read (xv s a) = s.tab.logAt (s.byteX a) := by
    rw [Tables.logAt, toNat_byteX ha]
  refine ⟨_, exec_pPows_completes d hv ha, ord_polyPows _ _ _, fun k hk hdk => ?_, fun hx k hk => ?_,
    fun hx => ?_⟩
  · rw [coef_polyPows _ _ _ hk, if_neg (by omega)]
  · rw [hentry hk, powerEntry, if_pos ((byteX_eq_zero_iff ha).mpr hx)]
  have hne : s.byteX a ≠ 0 := fun e => hx ((byteX_eq_zero_iff ha).mp e)
  have hpower {k : Nat} (hk : k ≤ (s.getP d).deg) : (polyPows s.tab (s.byteX a) (s.getP d)).coef k =
      powerLog (s.tab.logAt (s.byteX a)) k := (hentry hk).trans (if_neg hne)
  rw [hlog]
  refine ⟨hpower (Nat.zero_le _), fun k h1 hk => ?_, fun hfield k hk => ?_⟩
  · obtain ⟨j, rfl⟩ := Nat.exists_eq_add_of_le' h1
    rw [hpower hk, hpower (by omega)]
    rfl
  · have hvalid := hfield.validPowers_prim hv
    rw [hpower hk, hfield.tables hv]
    refine ⟨toNat_powerLog (alphaPow_logAt hvalid hne).2.1 k, ?_⟩
    rw [powerLog_eq_logAt hvalid hne]
    exact expAt_logAt hvalid (elementPower_ne_zero hvalid hne k)

/-! ## The three evaluators (R136) -/

/-- Entry 0 of a power table is 0 for the element 0 only. -/
theorem powerEntry_zero_eq_zero_iff (t : Tables) (v : Byte) : powerEntry t v 0 = 0 ↔ v = 0 := by
  rw [powerEntry]
  by_cases h : v = 0
  · exact ⟨fun _ => h, fun _ => if_pos h⟩
  · rw [if_neg h]
    exact iff_of_false (by decide : (255 : Byte) ≠ 0) h

/-- Evaluation by the power table of an element reads the terms of R131 from the table. -/
theorem polyEval_eq_polyEvalPowers (t : Tables) {q w : PolyReg} (v : Byte) (h : q.deg ≤ w.deg) :
    polyEval t q v = polyEvalPowers t q (polyPows t v w) := by
  rw [polyEvalPowers_eq, coef_polyPows_of_le t v w (Nat.zero_le _)]
  by_cases hv : v = 0
  · rw [if_pos ((powerEntry_zero_eq_zero_iff t v).mpr hv), polyEval, if_pos hv]
  · rw [if_neg fun e => hv ((powerEntry_zero_eq_zero_iff t v).mp e), polyEval_of_ne_zero t q hv]
    refine xorSum_congr fun i hi => ?_
    rw [coef_polyPows_of_le t v w (by omega), powerEntry, if_neg hv]
    rfl

section Accepted

variable {prim : BitVec 9} (hv : validPowers (buildExp prim) = true)

include hv

/-- Only the element 0 has the logarithm 0. -/
theorem logAt_eq_zero_iff (c : Byte) : (buildTables prim).logAt c = 0 ↔ c = 0 := by
  constructor
  · intro h
    by_contra hne
    obtain ⟨-, hpos, -⟩ := alphaPow_logAt hv hne
    rw [h] at hpos
    exact absurd hpos (by decide)
  · intro h
    rw [h, logAt_buildTables_zero]

/-- The log form holds the logarithms that evaluation by powers looks up. -/
theorem polyEvalPowers_eq_polyEvalLog (q w l : PolyReg) : polyEvalPowers (buildTables prim) q w =
    polyEvalLog (buildTables prim) (polyToLog (buildTables prim) q l) w := by
  have hdeg : (polyToLog (buildTables prim) q l).deg = q.deg :=
    congrArg BitVec.toNat (ord_polyToLog _ q l)
  have hcoef {i : Nat} (hi : i ≤ q.deg) : (polyToLog (buildTables prim) q l).coef i =
      (buildTables prim).logAt (q.coef i) := by
    rw [coef_polyToLog _ _ _ (Nat.lt_of_le_of_lt hi q.deg_lt), if_pos hi]
  rw [polyEvalPowers_eq, polyEvalLog_eq, hdeg, hcoef (Nat.zero_le _)]
  refine if_congr Iff.rfl ?_ (xorSum_congr fun i hi => ?_)
  · by_cases hzero : q.coef 0 = 0
    · rw [if_pos ((logAt_eq_zero_iff hv _).mpr hzero), hzero]
    · rw [if_neg fun e => hzero ((logAt_eq_zero_iff hv _).mp e), expAt_logAt hv hzero]
  · rw [hcoef (by omega)]
    exact if_congr (logAt_eq_zero_iff hv _).symm rfl rfl

end Accepted

/-- Settles O40: the power table holds the exponents of R131, and the log form the logarithms of the
coefficients. -/
theorem theThreeEvaluatorsAgree : Obligations.TheThreeEvaluatorsAgree := by
  intro p hp q w l v h t
  have hpowers := polyEval_eq_polyEvalPowers t v h
  exact ⟨hpowers, hpowers.trans (polyEvalPowers_eq_polyEvalLog (validPowers_of_primitive hp) q _ l)⟩

end Sys2Proof.Machine
end

section
/-! The polynomial that `P.ROOTS` builds has the listed values as roots (R131, R137): one more factor
multiplies its value at `v` by `v + root`. -/

namespace Sys2Proof.Machine

open Sys2Proof Sys2Proof.Claims

/-- The value of the product of `n` linear factors, at `v`. -/
def rootsValue (t : Tables) (roots : PolyReg) (n : Nat) (v : Byte) : Byte :=
  polyValue t (n + 1) (monicProduct t roots n) v

section Accepted

variable {prim : BitVec 9} (hv : validPowers (buildExp prim) = true)

include hv

theorem gfMul_xor_left (a b c : Byte) : gfMul (buildTables prim) (a ^^^ b) c =
    gfMul (buildTables prim) a c ^^^ gfMul (buildTables prim) b c := by
  simp only [gfMul_comm _ _ c, gfMul_xor hv]

theorem polyValue_xor (n : Nat) (c d : Nat → Byte) (v : Byte) :
    polyValue (buildTables prim) n (fun k => c k ^^^ d k) v =
      polyValue (buildTables prim) n c v ^^^ polyValue (buildTables prim) n d v := by
  simp only [polyValue, gfMul_xor_left hv, xorSum_xor]

theorem polyValue_scale (n : Nat) (r : Byte) (c : Nat → Byte) (v : Byte) :
    polyValue (buildTables prim) n (fun k => gfMul (buildTables prim) r (c k)) v =
      gfMul (buildTables prim) r (polyValue (buildTables prim) n c v) := by
  simp only [polyValue, gfMul_xorSum hv, gfMul_assoc hv]

theorem polyValue_shift (n : Nat) (c : Nat → Byte) (v : Byte) :
    polyValue (buildTables prim) (n + 1) (fun k => if k = 0 then 0 else c (k - 1)) v =
      gfMul (buildTables prim) v (polyValue (buildTables prim) n c v) := by
  rw [polyValue, xorSum_succ_front, if_pos rfl, zero_gfMul, byte_zero_xor, gfMul_polyValue hv]
  rfl

theorem rootsValue_succ (roots : PolyReg) (n : Nat) (v : Byte) :
    rootsValue (buildTables prim) roots (n + 1) v =
      gfMul (buildTables prim) (v ^^^ roots.coef n) (rootsValue (buildTables prim) roots n v) := by
  have htop : polyValue (buildTables prim) (n + 2) (monicProduct (buildTables prim) roots n) v =
      rootsValue (buildTables prim) roots n v := by
    rw [polyValue, xorSum_succ, monicProduct_above roots (Nat.lt_succ_self n), zero_gfMul, byte_xor_zero]
    rfl
  have hfactor : rootsValue (buildTables prim) roots (n + 1) v =
      polyValue (buildTables prim) (n + 2)
        (fun k => if k = 0 then 0 else monicProduct (buildTables prim) roots n (k - 1)) v ^^^
      polyValue (buildTables prim) (n + 2)
        (fun k => gfMul (buildTables prim) (roots.coef n) (monicProduct (buildTables prim) roots n k)) v :=
    polyValue_xor hv _ _ _ v
  rw [hfactor, polyValue_shift hv, polyValue_scale hv, htop, gfMul_xor_left hv]
  rfl

/-- Each root that has been absorbed makes its own factor 0. -/
theorem rootsValue_root (roots : PolyReg) {i n : Nat} (h : i < n) :
    rootsValue (buildTables prim) roots n (roots.coef i) = 0 := by
  induction n with
  | zero => omega
  | succ n ih =>
    rw [rootsValue_succ hv]
    rcases Nat.lt_succ_iff_lt_or_eq.mp h with hlt | heq
    · rw [ih hlt, gfMul_zero]
    · rw [heq, BitVec.xor_self]
      exact zero_gfMul _ _

end Accepted

/-- `P.EVAL` at an element given by the zero-extended value of its register. -/
theorem exec_pEval_at {d : XReg} {a : PReg} {b : XReg} {s : State} {v : Byte} (hv : s.fvalid = true)
    (hb : s.getX b = ext8 v) :
    exec (.pEval d a b) s = .next (s.setXByte d (polyEval s.tab (s.getP a) v)) := by
  have hvalue : xv s b = v.toNat :=
    (congrArg BitVec.toNat hb).trans (BitVec.toNat_setWidth_of_le (by omega))
  have hrange : xv s b ≤ 255 := by
    have hlt := v.isLt
    omega
  have hbyte : s.byteX b = v := BitVec.eq_of_toNat_eq ((toNat_byteX hrange).trans hvalue)
  rw [exec_pEval_completes d a hv hrange, hbyte]

/-- Settles O42: the polynomial built is the product of the linear factors, and its value at a root is
0. -/
theorem theBuiltPolynomialVanishesAtItsRoots : Obligations.TheBuiltPolynomialVanishesAtItsRoots := by
  intro d a s t hfield hv hne hdeg ht i x y hi hy
  obtain ⟨q, b0, b1, hexec, hqdeg, -, hcoef, -⟩ :=
    pRootsMultipliesTheLinearFactors d a s hfield hv hne hdeg
  have hvalid := hfield.validPowers_prim hv
  obtain ⟨hfvalid, htab, hq⟩ : t.fvalid = s.fvalid ∧ t.tab = s.tab ∧ t.getP d = q := by
    rw [hexec] at ht
    injection ht with ht
    rw [← ht]
    exact ⟨rfl, rfl, s.getP_setP_same d q⟩
  have hzero : polyEval t.tab (t.getP d) ((s.getP a).coef i) = 0 :=
    calc polyEval t.tab (t.getP d) ((s.getP a).coef i)
        = polyValue s.tab (q.deg + 1) q.coef ((s.getP a).coef i) := by
          rw [hq, htab, hfield.tables hv, polyEval_eq_polyValue hvalid]
      _ = rootsValue s.tab (s.getP a) ((s.getP a).deg + 1) ((s.getP a).coef i) := by
          rw [hqdeg]
          exact xorSum_congr fun k hk => by rw [hcoef k (by omega)]
      _ = 0 := by
          rw [hfield.tables hv]
          exact rootsValue_root hvalid (s.getP a) (Nat.lt_succ_of_le hi)
  rw [exec_pEval_at (hfvalid.trans hv) hy]
  exact next_setXByte (congrArg ext8 hzero)

end Sys2Proof.Machine
end

section
/-! The branch-metric unit (R150 to R158): its distances are exact in 16 bits, what each of its commands
completes with, and on hard symbols the soft distances as multiples of the Hamming distance. -/

namespace Sys2Proof.Machine

open Sys2Proof Sys2Proof.Claims

/-! ## The distances fit 16 bits (R151) -/

/-- A sum over the taps, each term at most `b`. -/
theorem sum_taps_le {n b : Nat} {f : Nat → Nat} (h : ∀ j, f j ≤ b) : ((List.range n).map f).sum ≤ n * b := by
  have hterm : ∀ x ∈ (List.range n).map f, x ≤ b := by
    intro x hx
    obtain ⟨j, -, rfl⟩ := List.mem_map.mp hx
    exact h j
  simpa using List.sum_le_card_nsmul _ b hterm

theorem gap_idealValue_le (v : Byte) (o j : Nat) : gap v.toNat (idealValue o j) ≤ 255 := by
  have hv := v.isLt
  unfold gap idealValue
  split <;> omega

theorem linearDistance_le (s : State) (o : Nat) : linearDistance s o ≤ s.rate.toNat * 255 :=
  sum_taps_le fun j => gap_idealValue_le (s.sym.read j) o j

theorem quadraticDistance_le (s : State) (o : Nat) : quadraticDistance s o ≤ s.rate.toNat * 255 ^ 2 / 8 :=
  Nat.div_le_div_right (sum_taps_le fun j => Nat.pow_le_pow_left (gap_idealValue_le (s.sym.read j) o j) 2)

section Exact

variable {s : State} (hrate : s.rate.toNat ≤ 8) (o : Nat)

include hrate

theorem toNat_softLin : (softLin s.sym s.rate.toNat o).toNat = linearDistance s o := by
  have hle := linearDistance_le s o
  rw [softLin_eq, BitVec.toNat_ofNat, Nat.mod_eq_of_lt (by omega)]

theorem toNat_softQuad : (softQuad s.sym s.rate.toNat o).toNat = quadraticDistance s o := by
  have hle := quadraticDistance_le s o
  rw [softQuad_eq, BitVec.toNat_ofNat, Nat.mod_eq_of_lt (by omega)]

end Exact

/-! ## The distance commands (R152 to R154) -/

theorem exec_bmHard (d a b : XReg) (s : State) : exec (.bmHard d a b) s =
    .next (s.setX d (BitVec.ofNat 32 (bitCount (xv s a ^^^ xv s b)))) := by
  have arm : exec (.bmHard d a b) s =
      .next (s.setX d (BitVec.ofNat 32 (popcount (s.getX a ^^^ s.getX b)))) := rfl
  rw [arm, popcount_eq_bitCount, BitVec.toNat_xor, xv, xv]

section Soft

variable {s : State} {a : XReg} (d : XReg) (hcode : s.vstate ≠ .unconf) (hrate : s.rate.toNat ≤ 8)
  (hsym : xv s a < 2 ^ s.rate.toNat)

include hcode hsym

/-- A configured block and a symbol in range: no condition holds. -/
theorem symbolChecks_pass :
    firstCause [noCode s, raises .operandRange (s.symbolCount ≤ (s.getX a).toNat)] = none := by
  simp only [firstCause_eq_none, List.forall_mem_cons, noCode, raises_fst, decide_eq_false_iff_not]
  exact ⟨hcode, Nat.not_le.mpr hsym, by simp⟩

include hrate

theorem exec_bmSoftl_completes : exec (.bmSoftl d a) s =
    .next (s.setX d (BitVec.ofNat 32 (linearDistance s (xv s a)))) := by
  have arm : exec (.bmSoftl d a) s = execBmSoftl d a s := rfl
  rw [arm, execBmSoftl, attempt_of_none (symbolChecks_pass hcode hsym), ← BitVec.ofNat_toNat,
    toNat_softLin hrate, xv]

theorem exec_bmSoftq_completes : exec (.bmSoftq d a) s =
    .next (s.setX d (BitVec.ofNat 32 (quadraticDistance s (xv s a)))) := by
  have arm : exec (.bmSoftq d a) s = execBmSoftq d a s := rfl
  rw [arm, execBmSoftq, attempt_of_none (symbolChecks_pass hcode hsym), ← BitVec.ofNat_toNat,
    toNat_softQuad hrate, xv]

end Soft

/-- Settles O43: no distance wraps at a rate of at most 8, so the 16-bit value written is exact. -/
theorem branchMetricsWriteTheDistances : Obligations.BranchMetricsWriteTheDistances := by
  intro d a b s
  exact ⟨exec_bmHard d a b s, fun hcode hrate hsym =>
    ⟨exec_bmSoftl_completes d hcode hrate hsym, exec_bmSoftq_completes d hcode hrate hsym⟩⟩

/-! ## Writing a soft symbol (R155, R156) -/

theorem exec_bmSym_completes {j : Nat} {a : XReg} {s : State} (hj : j ≤ 7) (ha : xv s a ≤ 255) :
    exec (.bmSym j a) s = .next { s with sym := s.sym.write j (s.byteX a) } := by
  have arm : exec (.bmSym j a) s = execBmSym j a s := rfl
  have hpass : firstCause [raises .operandRange (notIndex8 j),
      raises .operandRange (notByte (s.getX a))] = none := by
    simp only [firstCause_eq_none, List.forall_mem_cons, raises_fst, decide_eq_false_iff_not, not_lt]
    exact ⟨hj, ha, by simp⟩
  rw [arm, execBmSym, attempt_of_none hpass]

theorem exec_bmSym_faults {j : Nat} {a : XReg} {s : State} (h : 7 < j ∨ 255 < xv s a) :
    Faults (.bmSym j a) s .operandRange := by
  have arm : exec (.bmSym j a) s = execBmSym j a s := rfl
  have hcause : firstCause [raises .operandRange (notIndex8 j),
      raises .operandRange (notByte (s.getX a))] = some .operandRange := by
    by_cases hj : 7 < j
    · simp [hj]
    · simp [hj, show 255 < (s.getX a).toNat from h.resolve_left hj]
  exact arm.trans (attempt_of_some hcause)

theorem exec_bmSymi_completes {j n : Nat} (s : State) (hj : j ≤ 7) (hn : n ≤ 255) :
    exec (.bmSymi j n) s = .next { s with sym := s.sym.write j (BitVec.ofNat 8 n) } := by
  have arm : exec (.bmSymi j n) s = execBmSymi j n s := rfl
  have hpass : firstCause [raises .operandRange (notIndex8 j ∨ 255 < n)] = none := by
    simp only [firstCause_eq_none, List.forall_mem_cons, raises_fst, decide_eq_false_iff_not]
    exact ⟨by omega, by simp⟩
  rw [arm, execBmSymi, attempt_of_none hpass]

theorem exec_bmSymi_faults {j n : Nat} (s : State) (h : 7 < j ∨ 255 < n) :
    Faults (.bmSymi j n) s .operandRange := by
  have arm : exec (.bmSymi j n) s = execBmSymi j n s := rfl
  have hcause : firstCause [raises .operandRange (notIndex8 j ∨ 255 < n)] = some .operandRange := by
    simp [h]
  exact arm.trans (attempt_of_some hcause)

/-- Settles O44: the conditions of each command are the two ranges, and its effect the one write. -/
theorem symbolCommandsWriteOneSoftSymbol : Obligations.SymbolCommandsWriteOneSoftSymbol := by
  intro j n a s
  exact ⟨exec_bmSym_completes, exec_bmSym_faults, exec_bmSymi_completes s, exec_bmSymi_faults s⟩

/-! ## Soft distances of hard symbols (R158) -/

theorem length_filter_eq_sum (l : List Nat) (p : Nat → Bool) :
    (l.filter p).length = (l.map fun k => (p k).toNat).sum := by
  induction l with
  | nil => rfl
  | cons k l ih => cases hk : p k <;> simp [hk, ih, Nat.add_comm]

/-- Of a number below `2^n` only the bits below `n` count. -/
theorem bitCount_eq_sum {v n : Nat} (hv : v < 2 ^ n) (hn : n ≤ 32) :
    bitCount v = ((List.range n).map fun j => (v.testBit j).toNat).sum := by
  have hhigh : ∀ i, v.testBit (n + i) = false := fun i =>
    Nat.testBit_lt_two_pow (hv.trans_le (Nat.pow_le_pow_right (by decide) (Nat.le_add_right n i)))
  have hsplit : List.range 32 = List.range n ++ (List.range (32 - n)).map (n + ·) := by
    rw [← List.range_add, Nat.add_sub_cancel' hn]
  rw [bitCount, length_filter_eq_sum, hsplit]
  simp [Function.comp_def, hhigh]

theorem bitCount_le (v : Nat) : bitCount v ≤ 32 :=
  (List.length_filter_le _ _).trans_eq List.length_range

theorem toNat_hamming (o : Nat) {r : Nat} (hr : r < 2 ^ 32) :
    (hamming o (BitVec.ofNat 32 r)).toNat = bitCount (o ^^^ r) := by
  have hle := bitCount_le (o ^^^ r)
  rw [hamming_eq, BitVec.toNat_ofNat, BitVec.toNat_ofNat, Nat.mod_eq_of_lt hr,
    Nat.mod_eq_of_lt (by omega)]

/-- A tap on which two hard symbols differ contributes 255, any other 0. -/
theorem gap_hardSymbol (o r j : Nat) : gap (if r.testBit j then 255 else 0 : Byte).toNat (idealValue o j) =
    255 * ((o ^^^ r).testBit j).toNat := by
  rw [Nat.testBit_xor, idealValue]
  cases o.testBit j <;> cases r.testBit j <;> rfl

section HardSymbols

variable {s : State} {o r : Nat} (hrate : s.rate.toNat ≤ 8) (ho : o < 2 ^ s.rate.toNat)
  (hr : r < 2 ^ s.rate.toNat)
  (hsym : ∀ j < s.rate.toNat, s.sym.read j = if r.testBit j then 255 else 0)

include hrate ho hr

/-- A sum over the taps in which each tap that differs contributes `c`. -/
theorem sum_differing_taps {c : Nat} {f : Nat → Nat}
    (hf : ∀ j < s.rate.toNat, f j = c * ((o ^^^ r).testBit j).toNat) :
    ((List.range s.rate.toNat).map f).sum = c * bitCount (o ^^^ r) := by
  rw [bitCount_eq_sum (Nat.xor_lt_two_pow ho hr) (by omega), ← List.sum_map_mul_left,
    List.map_congr_left fun j hj => hf j (List.mem_range.mp hj)]

include hsym

theorem linearDistance_of_hardSymbols : linearDistance s o = 255 * bitCount (o ^^^ r) :=
  sum_differing_taps hrate ho hr fun j hj => by rw [hsym j hj, gap_hardSymbol]

theorem quadraticDistance_of_hardSymbols : quadraticDistance s o = 65025 * bitCount (o ^^^ r) / 8 := by
  have hterm : ∀ j < s.rate.toNat, gap (s.sym.read j).toNat (idealValue o j) ^ 2 =
      65025 * ((o ^^^ r).testBit j).toNat := by
    intro j hj
    rw [hsym j hj, gap_hardSymbol]
    cases (o ^^^ r).testBit j <;> rfl
  rw [quadraticDistance, sum_differing_taps hrate ho hr hterm]

end HardSymbols

/-- Settles O45: each tap on which the symbols differ contributes 255, or its square. -/
theorem softDistancesOfHardSymbolsFollowTheHammingDistance :
    Obligations.SoftDistancesOfHardSymbolsFollowTheHammingDistance := by
  intro s o r hrate ho hr hsym
  have hr32 : r < 2 ^ 32 := hr.trans_le (Nat.pow_le_pow_right (by decide) (by omega))
  rw [toNat_softLin hrate, toNat_softQuad hrate, toNat_hamming o hr32]
  exact ⟨linearDistance_of_hardSymbols hrate ho hr hsym, quadraticDistance_of_hardSymbols hrate ho hr hsym⟩

end Sys2Proof.Machine
end

section
/-! The commands of the trellis unit outside the slices (R170 to R174, R185 to R189): for each, when it
faults and what it leaves when it completes. -/

namespace Sys2Proof.Machine

open Sys2Proof Sys2Proof.Claims

/-! ## Registers (R170, R172) -/

theorem exec_vtPoly_completes {j : Nat} (a : XReg) (s : State) (hj : j ≤ 7) :
    exec (.vtPoly j a) s = .next { s with poly := s.poly.write j (s.getX a) } := by
  have arm : exec (.vtPoly j a) s = execVtPoly j a s := rfl
  exact arm.trans (attempt_of_none (by simp [hj]))

theorem exec_vtPoly_faults {j : Nat} (a : XReg) (s : State) (hj : 7 < j) :
    Faults (.vtPoly j a) s .operandRange := by
  have arm : exec (.vtPoly j a) s = execVtPoly j a s := rfl
  exact arm.trans (attempt_of_some (by simp [hj]))

theorem exec_vtMode_completes {n : Nat} (s : State) (hn : n ≤ 1) :
    exec (.vtMode n) s = .next { s with softmode := n == 1 } := by
  have arm : exec (.vtMode n) s = execVtMode n s := rfl
  exact arm.trans (attempt_of_none (by simp [hn]))

theorem exec_vtMode_faults {n : Nat} (s : State) (hn : 1 < n) : Faults (.vtMode n) s .operandRange := by
  have arm : exec (.vtMode n) s = execVtMode n s := rfl
  exact arm.trans (attempt_of_some (by simp [hn]))

/-- Settles O46: the one condition of each command is its range, and its effect the one write. -/
theorem polyAndModeWriteTheirRegister : Obligations.PolyAndModeWriteTheirRegister :=
  fun _ _ a s => ⟨exec_vtPoly_completes a s, exec_vtPoly_faults a s,
    exec_vtMode_completes s (by decide), exec_vtMode_completes s (by decide), exec_vtMode_faults s⟩

/-! ## The output table (R171) -/

/-- One tap more adds its bit (R171). -/
theorem outputSymbol_succ (poly : Mem Word 8) (rate v : Nat) : outputSymbol poly (rate + 1) v =
    if tapBit v (poly.read rate) then outputSymbol poly rate v ||| BitVec.twoPow 8 rate
    else outputSymbol poly rate v := by
  rw [outputSymbol, List.range_succ, List.foldl_append]
  rfl

/-- Bit `j` of an output symbol is the output of tap `j` (R171). -/
theorem getLsbD_outputSymbol (poly : Mem Word 8) (rate v : Nat) {j : Nat} (hj : j < 8) :
    (outputSymbol poly rate v).getLsbD j = (decide (j < rate) && tapBit v (poly.read j)) := by
  induction rate with
  | zero => simp [outputSymbol]
  | succ n ih =>
    rw [outputSymbol_succ, apply_ite (BitVec.getLsbD · j), BitVec.getLsbD_or, ih, BitVec.getLsbD_twoPow]
    by_cases hjn : j = n
    · subst hjn
      simp [hj]
    · have hlt : j < n + 1 ↔ j < n := by omega
      simp [hlt, Ne.symm hjn]

/-- A tap is the parity of the bits that the register value and the polynomial share (R171). -/
theorem tapBit_eq_decide {v : Nat} (hv : v < 2 ^ 32) (poly : Word) :
    tapBit v poly = decide (bitCount (v &&& poly.toNat) % 2 = 1) := by
  rw [tapBit, popcount_eq_bitCount, BitVec.toNat_and, BitVec.toNat_ofNat, Nat.mod_eq_of_lt hv]
  rfl

theorem exec_vtCfg_completes {a b : XReg} {s : State} (hrate : 2 ≤ xv s a ∧ xv s a ≤ 8)
    (horder : 2 ≤ xv s b ∧ xv s b ≤ 16) :
    exec (.vtCfg a b) s = .next (s.configure (xv s a) (xv s b)) := by
  have arm : exec (.vtCfg a b) s = execVtCfg a b s := rfl
  exact arm.trans (attempt_of_none (vtCfg_completes.mpr ⟨hrate, horder⟩))

theorem exec_vtCfg_faults_rate {a : XReg} (b : XReg) {s : State} (h : xv s a < 2 ∨ 8 < xv s a) :
    Faults (.vtCfg a b) s .rate := by
  have arm : exec (.vtCfg a b) s = execVtCfg a b s := rfl
  have hcond : (s.getX a).toNat < Config.rateMin ∨ Config.rateMax < (s.getX a).toNat := h
  exact arm.trans (attempt_of_some (by simp [hcond]))

theorem exec_vtCfg_faults_order {a b : XReg} {s : State} (hrate : 2 ≤ xv s a ∧ xv s a ≤ 8)
    (h : xv s b < 2 ∨ 16 < xv s b) : Faults (.vtCfg a b) s .order := by
  have arm : exec (.vtCfg a b) s = execVtCfg a b s := rfl
  have hpass : ¬ ((s.getX a).toNat < Config.rateMin ∨ Config.rateMax < (s.getX a).toNat) :=
    not_or.mpr ⟨Nat.not_lt.mpr hrate.1, Nat.not_lt.mpr hrate.2⟩
  have hcond : (s.getX b).toNat < Config.orderMin ∨ Config.orderMax < (s.getX b).toNat := h
  exact arm.trans (attempt_of_some (by simp [hpass, hcond]))

/-- Settles O47: the conditions in their order, and the table read entry by entry and bit by bit. -/
theorem cfgBuildsTheOutputTable : Obligations.CfgBuildsTheOutputTable := by
  intro a b s
  refine ⟨exec_vtCfg_faults_rate b, fun h2 h8 => exec_vtCfg_faults_order ⟨h2, h8⟩,
    fun hr2 hr8 ho2 ho16 => ⟨_, exec_vtCfg_completes ⟨hr2, hr8⟩ ⟨ho2, ho16⟩, by simp, ?_⟩⟩
  intro v hv j hj
  have hv32 : v < 2 ^ 32 := hv.trans_le (Nat.pow_le_pow_right (by decide) (by omega))
  rw [List.getD_eq_getElem _ _ (by simpa using hv), List.getElem_map, List.getElem_range,
    getLsbD_outputSymbol _ _ _ hj, tapBit_eq_decide hv32]

/-! ## The lifecycle (R173, R174) -/

theorem exec_vtInit_completes {s : State} (hs : s.vstate ≠ .unconf) :
    exec .vtInit s = .next s.initialise := by
  have arm : exec .vtInit s = execVtInit s := rfl
  exact arm.trans (attempt_of_none (by simp [noCode, hs]))

theorem exec_vtInit_faults {s : State} (hs : s.vstate = .unconf) : Faults .vtInit s .sequence := by
  have arm : exec .vtInit s = execVtInit s := rfl
  exact arm.trans (attempt_of_some (by simp [noCode, hs]))

/-- Settles O48: the one condition is that a code is configured, and the effect is `State.initialise`. -/
theorem initMakesTheDecoderReady : Obligations.InitMakesTheDecoderReady :=
  fun _ => ⟨exec_vtInit_faults, exec_vtInit_completes⟩

/-- A command that first asks for a ready decoder faults with `Sequence` in any other (R163, R185). -/
theorem firstCause_notReady {s : State} (hs : s.vstate ≠ .ready) (l : List Check) :
    firstCause (notReady s :: l) = some .sequence := by
  simp [notReady, hs]

/-- In a ready decoder the other conditions decide. -/
theorem firstCause_ready {s : State} (hs : s.vstate = .ready) (l : List Check) :
    firstCause (notReady s :: l) = firstCause l := by
  simp [notReady, hs]

theorem exec_vtReset_faults_sequence (a : XReg) {s : State} (hs : s.vstate ≠ .ready) :
    Faults (.vtReset a) s .sequence := by
  have arm : exec (.vtReset a) s = execVtReset a s := rfl
  exact arm.trans (attempt_of_some (firstCause_notReady hs _))

theorem exec_vtReset_completes {a : XReg} {s : State} (hs : s.vstate = .ready)
    (hn : 2 * s.order.toNat - 2 ≤ xv s a) : exec (.vtReset a) s = .next (s.startDecode (s.getX a)) := by
  have arm : exec (.vtReset a) s = execVtReset a s := rfl
  have hlen : ¬ (s.getX a).toNat < 2 * s.order.toNat - 2 := Nat.not_lt.mpr hn
  exact arm.trans (attempt_of_none (by rw [firstCause_ready hs]; simp [hlen]))

theorem exec_vtReset_faults_length {a : XReg} {s : State} (hs : s.vstate = .ready)
    (hn : xv s a < 2 * s.order.toNat - 2) : Faults (.vtReset a) s .length := by
  have arm : exec (.vtReset a) s = execVtReset a s := rfl
  have hlen : (s.getX a).toNat < 2 * s.order.toNat - 2 := hn
  exact arm.trans (attempt_of_some (by rw [firstCause_ready hs]; simp [hlen]))

/-- Settles O49: `Sequence` before `Length`, and the effect is `State.startDecode`. -/
theorem vtResetStartsADecode : Obligations.VtResetStartsADecode :=
  fun a _ => ⟨exec_vtReset_faults_sequence a, exec_vtReset_faults_length, exec_vtReset_completes⟩

/-! ## Read-out (R185, R186, R188, R189) -/

theorem exec_vtQlen_completes (d : XReg) {s : State} (hs : s.vstate = .ready) :
    exec (.vtQlen d) s = .next (s.setX d (BitVec.ofNat 32 s.outq.length)) := by
  have arm : exec (.vtQlen d) s = execVtQlen d s := rfl
  exact arm.trans (attempt_of_none (firstCause_ready hs _))

theorem exec_vtQlen_faults (d : XReg) {s : State} (hs : s.vstate ≠ .ready) :
    Faults (.vtQlen d) s .sequence := by
  have arm : exec (.vtQlen d) s = execVtQlen d s := rfl
  exact arm.trans (attempt_of_some (firstCause_notReady hs _))

theorem exec_vtRdq_completes (d : XReg) {a : XReg} {s : State} (hs : s.vstate = .ready)
    (h : xv s a < s.outq.length) :
    exec (.vtRdq d a) s = .next (s.setX d (if s.outq[xv s a] then 1 else 0)) := by
  have arm : exec (.vtRdq d a) s = execVtRdq d a s := rfl
  have hrange : ¬ s.outq.length ≤ (s.getX a).toNat := Nat.not_le.mpr h
  have hbit : s.outq.getD (s.getX a).toNat false = s.outq[xv s a] := List.getD_eq_getElem _ _ h
  have hpass : firstCause [notReady s, raises .operandRange (s.outq.length ≤ (s.getX a).toNat)] = none := by
    rw [firstCause_ready hs]; simp [hrange]
  rw [arm, execVtRdq, attempt_of_none hpass, setWidth_bit1, hbit]

theorem exec_vtRdq_faults_sequence (d a : XReg) {s : State} (hs : s.vstate ≠ .ready) :
    Faults (.vtRdq d a) s .sequence := by
  have arm : exec (.vtRdq d a) s = execVtRdq d a s := rfl
  exact arm.trans (attempt_of_some (firstCause_notReady hs _))

theorem exec_vtRdq_faults_range (d : XReg) {a : XReg} {s : State} (hs : s.vstate = .ready)
    (h : s.outq.length ≤ xv s a) : Faults (.vtRdq d a) s .operandRange := by
  have arm : exec (.vtRdq d a) s = execVtRdq d a s := rfl
  have hrange : s.outq.length ≤ (s.getX a).toNat := h
  exact arm.trans (attempt_of_some (by rw [firstCause_ready hs]; simp [hrange]))

/-- Settles O58: `Sequence` before the range; the bit read is zero-extended. -/
theorem queueReadOutRemovesNothing : Obligations.QueueReadOutRemovesNothing :=
  fun d a _ =>
    ⟨fun hs => ⟨exec_vtQlen_faults d hs, exec_vtRdq_faults_sequence d a hs⟩,
      fun hs => ⟨exec_vtQlen_completes d hs, exec_vtRdq_faults_range d hs, exec_vtRdq_completes d hs⟩⟩

theorem exec_vtTab_completes (d : XReg) {a : XReg} {s : State} (hs : s.vstate ≠ .unconf)
    (h : xv s a < s.registerCount) :
    exec (.vtTab d a) s = .next (s.setX d (ext8 (s.outtab.getD (xv s a) 0))) := by
  have arm : exec (.vtTab d a) s = execVtTab d a s := rfl
  have hrange : ¬ s.registerCount ≤ (s.getX a).toNat := Nat.not_le.mpr h
  exact arm.trans (attempt_of_none (by simp [noCode, hs, hrange]))

theorem exec_vtPm_completes (d : XReg) {a : XReg} {s : State} (hs : s.vstate = .ready)
    (h : xv s a < s.registerCount) :
    exec (.vtPm d a) s = .next (s.setX d (BitVec.ofNat 32 (readPM s (xv s a)))) := by
  have arm : exec (.vtPm d a) s = execVtPm d a s := rfl
  have hrange : ¬ s.registerCount ≤ (s.getX a).toNat := Nat.not_le.mpr h
  have hpass : firstCause [notReady s, raises .operandRange (s.registerCount ≤ (s.getX a).toNat)] = none := by
    rw [firstCause_ready hs]; simp [hrange]
  rw [arm, execVtPm, attempt_of_none hpass, ← BitVec.ofNat_toNat]
  rfl

/-- Settles O59: an index below `2^ORDER` passes the range, and the entry is zero-extended. -/
theorem tableAndMetricReadOut : Obligations.TableAndMetricReadOut :=
  fun d _ _ h => ⟨fun hs => exec_vtTab_completes d hs h, fun hs => exec_vtPm_completes d hs h⟩

end Sys2Proof.Machine
end

section
/-! The path back through the history and the flush that emits it (R178, R183, R184). -/

namespace Sys2Proof.Machine

open Sys2Proof Sys2Proof.Claims

/-! ## One step back (R178) -/

/-- The slot before `idx`, with the wrap-around at slot 0 (R178). -/
theorem State.slotBefore_eq {s : State} {idx : Nat} (h : idx < s.cap.toNat) :
    s.slotBefore idx = if idx = 0 then s.cap.toNat - 1 else idx - 1 := by
  unfold State.slotBefore
  split
  next h0 => subst h0; rw [Nat.zero_add, Nat.mod_eq_of_lt (by omega)]
  next h0 =>
    have hshift : idx + s.cap.toNat - 1 = (idx - 1) + s.cap.toNat := by omega
    rw [hshift, Nat.add_mod_right, Nat.mod_eq_of_lt (by omega)]

/-- The predecessor of a trellis state drops its newest bit and gets the survivor bit as its oldest
(R161, R178). -/
theorem State.predecessor_eq {s : State} {st : Nat} (h : st < states s) (b : Bool)
    (horder : 2 ≤ s.order.toNat) :
    s.predecessor st b = st / 2 + if b then states s / 2 else 0 := by
  have hor : st ||| (b.toNat <<< (s.order.toNat - 1)) = 2 ^ (s.order.toNat - 1) * b.toNat + st := by
    rw [Nat.two_pow_add_eq_or_of_lt h, Nat.shiftLeft_eq, Nat.mul_comm, Nat.or_comm]
  have heven : states s = 2 * (states s / 2) := by
    obtain ⟨n, hn⟩ : ∃ n, s.order.toNat - 1 = n + 1 := ⟨s.order.toNat - 2, by omega⟩
    rw [states, hn, Nat.pow_succ]
    omega
  rw [State.predecessor, hor, Nat.shiftRight_one]
  change (states s * b.toNat + st) / 2 = _
  cases b with
  | false => simp
  | true => simp only [Bool.toNat_true, if_true]; omega

/-- Settles O56: the slot and the predecessor of one step are those of R178. -/
theorem aPathBackFollowsTheSurvivorBits : Obligations.APathBackFollowsTheSurvivorBits := by
  intro s n idx st hcode hs hidx hst
  have horder : 2 ≤ s.order.toNat := (hcode.order hs).1
  dsimp only
  rw [State.pathBits, State.slotBefore_eq hidx, State.predecessor_eq hst _ horder]

/-! ## The flush (R183, R184) -/

theorem exec_vtFlush_completes {s : State} (hs : s.vstate = .ready) (hn : s.slice = s.sets) :
    exec .vtFlush s = .next (s.traceback 0 0) := by
  have arm : exec .vtFlush s = execVtFlush s := rfl
  exact arm.trans (attempt_of_none (by simp [hs, hn]))

theorem exec_vtFlush_faults {s : State} (h : s.vstate ≠ .ready ∨ s.slice ≠ s.sets) :
    Faults .vtFlush s .sequence := by
  have arm : exec .vtFlush s = execVtFlush s := rfl
  exact arm.trans (attempt_of_some (by simp [h]))

/-- A traceback that keeps nothing emits all the bits of the path back and empties the ring (R184). -/
theorem State.traceback_zero (s : State) (b : Nat) : s.traceback b 0 = { s with
    outq := s.outq ++ (s.pathBits s.hlen.toNat s.hidx.toNat b).reverse, hlen := 0 } := by
  simp [State.traceback_eq]

/-- Settles O55: the flush is the traceback from state 0 that keeps nothing. -/
theorem flushEmitsTheRemainingHistory : Obligations.FlushEmitsTheRemainingHistory :=
  fun s => ⟨exec_vtFlush_faults, fun hs hn => by
    rw [exec_vtFlush_completes hs hn, State.traceback_zero]⟩

/-- Settles O57: the invariant counts the bits emitted and held together (`DecoderOk.emitted`), and the
flush moves those held to `OUTQ`. -/
theorem aFinishedDecodeHasOneBitPerInnerOrTailSlice :
    Obligations.AFinishedDecodeHasOneBitPerInnerOrTailSlice := by
  intro s hinv hs hne
  have hd := hinv.decoder hs
  have hemitted := hd.emitted
  have hslice := hd.slice
  have horder : 2 ≤ s.order.toNat := (hinv.code.order (by simp [hs])).1
  have hsets : 2 * s.order.toNat - 2 ≤ s.sets.toNat := hd.sets.resolve_left hne
  refine ⟨by omega, fun hn => ⟨_, exec_vtFlush_completes hs hn, ?_, s.hlen_traceback_zero 0⟩⟩
  have hmoved := State.emitted_traceback (s := s) 0 (Nat.zero_le _)
  rw [s.hlen_traceback_zero 0, hemitted, hn] at hmoved
  have hzero : (0 : BitVec 16).toNat = 0 := rfl
  omega

end Sys2Proof.Machine
end

section
/-! What a slice writes to its bank and its history slot, in the spec's own words (R162, R164 to R166): the
sums that the model forms are those of `Sys2Proof.Claims`. -/

namespace Sys2Proof.Machine

open Sys2Proof Sys2Proof.Claims

/-! ## The banks, the states and the sums in the spec's words -/

theorem readPM_eq (s : State) (k : Nat) : readPM s k = (s.readBank.getD k 0).toNat := rfl

theorem writePM_eq (s : State) (k : Nat) : writePM s k = (s.writeBank.getD k 0).toNat := rfl

/-- The state with the distance table of the slice set (R157). -/
def State.withDist (s : State) (dist : List Metric) : State := { s with dist := dist }

theorem State.trellisStep_eq (s : State) (dist : List Metric) :
    s.trellisStep dist = (s.withDist dist).slicePhase.endSlice := rfl

/-- The bank read after a step is the one that the slice wrote (R179). -/
theorem readPM_trellisStep (s : State) (dist : List Metric) (k : Nat) : readPM (s.trellisStep dist) k =
    ((s.withDist dist).slicePhase.writeBank.getD k 0).toNat := by
  rw [readPM_eq, State.trellisStep_eq, State.readBank_endSlice]

theorem toNat_add16 (a b : Metric) : (add16 a b).toNat = (a.toNat + b.toNat) % 65536 :=
  BitVec.toNat_add a b

theorem add16Overflows_iff (a b : Metric) : add16Overflows a b = true ↔ 65535 < a.toNat + b.toNat :=
  decide_eq_true_iff

theorem State.DecoderOk.length_writeBank {s : State} (h : s.DecoderOk) :
    s.writeBank.length = s.registerCount :=
  ((s.forall_banks fun w => w.length = s.registerCount).mp ⟨h.bank0, h.bank1⟩).2

/-- The trellis states are the lower half of a bank (R161). -/
theorem State.DecoderOk.lt_length_writeBank {s : State} (h : s.DecoderOk) {k : Nat}
    (hk : k < s.stateCount) : k < s.writeBank.length := by
  rw [h.length_writeBank]
  exact hk.trans_le (Nat.pow_le_pow_right (by decide) (Nat.sub_le _ _))

theorem State.active_iff {s : State} {skip st : Nat} :
    s.active skip st = true ↔ st < states s ∧ skip ∣ st := by
  rw [State.active, Bool.and_eq_true, decide_eq_true_iff, beq_iff_eq, Nat.dvd_iff_mod_eq_zero]
  rfl

/-- Past the warm-up the `skip` of the phase is R162's. -/
theorem State.skip_phase {s : State} (h : s.order.toNat < s.slice.toNat + 2) :
    s.phase.skip = skipOf s := by
  unfold State.phase skipOf
  dsimp only
  rw [if_neg (by omega)]
  split <;> rfl

/-! ## The warm-up slice (R164) -/

section WarmUp

variable {s : State} (dist : List Metric) (h : s.DecoderOk) (hw : s.slice.toNat + 2 ≤ s.order.toNat)

include hw

theorem State.slicePhase_of_warmUp : (s.withDist dist).slicePhase =
    (s.withDist dist).warmUpSlice := by
  rcases (s.withDist dist).slicePhase_cases with ⟨_, e⟩ | ⟨hp, _⟩
  · exact e
  · exact absurd hp (Nat.not_lt.mpr hw)

theorem readPM_warmUp_stale {j : Nat} (hj : 2 ^ (s.slice.toNat + 1) ≤ j) :
    readPM (s.trellisStep dist) j = writePM s j := by
  rw [readPM_trellisStep, State.slicePhase_of_warmUp dist hw, State.writeBank_warmUpSlice, replaceAt_getD,
    if_neg fun c => absurd (of_decide_eq_true c.2) (Nat.not_lt.mpr hj)]
  rfl

theorem ovf_warmUp : (s.trellisStep dist).ovf = true ↔ s.ovf = true ∨
    ∃ j < 2 ^ (s.slice.toNat + 1), 65535 < branchOf s dist j + readPM s (j / 2) := by
  have hovf : (s.trellisStep dist).ovf = (s.ovf || (List.range (2 ^ (s.slice.toNat + 1))).any
      (s.withDist dist).warmOverflows) :=
    congrArg State.ovf (State.slicePhase_of_warmUp dist hw)
  rw [hovf, Bool.or_eq_true, List.any_eq_true]
  simp only [List.mem_range, State.warmOverflows, add16Overflows_iff]
  rfl

include h

theorem readPM_warmUp_active {j : Nat} (hj : j < 2 ^ (s.slice.toNat + 1)) :
    readPM (s.trellisStep dist) j = (branchOf s dist j + readPM s (j / 2)) % 65536 := by
  have hlen : j < s.writeBank.length := h.lt_length_writeBank (hj.trans_le (State.warmCount_le hw))
  rw [readPM_trellisStep, State.slicePhase_of_warmUp dist hw, State.writeBank_warmUpSlice, replaceAt_getD,
    if_pos ⟨hlen, decide_eq_true hj⟩]
  exact toNat_add16 _ _

end WarmUp

/-- Settles O51: a warm-up slice is one `replaceAt` of the write bank, and touches no part of the
history. -/
theorem warmUpSlicesAddWithoutComparing : Obligations.WarmUpSlicesAddWithoutComparing := by
  intro i s dist _ hd hleft hi hw
  have e := State.slicePhase_of_warmUp dist hw
  exact ⟨_, exec_of_stepsWith hi hleft, fun _ => readPM_warmUp_active dist hd hw,
    fun _ => readPM_warmUp_stale dist hw, ovf_warmUp dist hw,
    (congrArg State.hist e).trans (State.hist_setWriteBank _ _),
    (congrArg State.hidx e).trans (State.hidx_setWriteBank _ _),
    (congrArg State.hlen e).trans (State.hlen_setWriteBank _ _),
    (congrArg State.rcnt e).trans (State.rcnt_setWriteBank _ _),
    (congrArg State.outq e).trans (State.outq_setWriteBank _ _)⟩

/-! ## Add-compare-select (R165, R166) -/

/-- The state after the add-compare-select of an inner or tail slice with the distance table `dist`, before
its history processing (R165). -/
def State.compared (s : State) (dist : List Metric) : State :=
  (s.withDist dist).acsSlice (skipOf s)

section Compared

variable (s : State) (dist : List Metric)

theorem toNat_candidate0 (st : Nat) :
    ((s.withDist dist).candidate0 st).toNat = sumZero s dist st % 65536 :=
  toNat_add16 _ _

theorem toNat_candidate1 (st : Nat) :
    ((s.withDist dist).candidate1 st).toNat = sumOne s dist st % 65536 :=
  toNat_add16 _ _

theorem toNat_survivorMetric_eq (st : Nat) :
    ((s.withDist dist).survivorMetric st).toNat = survivorOf s dist st := by
  rw [State.toNat_survivorMetric, toNat_candidate0, toNat_candidate1, survivorOf]

theorem survivor_eq (st : Nat) : (s.withDist dist).survivor st =
    decide (sumOne s dist st % 65536 < sumZero s dist st % 65536) := by
  rw [State.survivor, toNat_candidate0, toNat_candidate1, ← decide_not]
  exact decide_eq_decide.mpr Nat.not_le

theorem candidateOverflows_iff (st : Nat) :
    (s.withDist dist).candidateOverflows st = true ↔
      65535 < sumZero s dist st ∨ 65535 < sumOne s dist st := by
  rw [State.candidateOverflows, Bool.or_eq_true, add16Overflows_iff, add16Overflows_iff]
  rfl

theorem writeBank_compared : (s.compared dist).writeBank =
    replaceAt s.writeBank (s.active (skipOf s)) (s.withDist dist).survivorMetric :=
  State.writeBank_acsSlice _ _

theorem setsOverflow_compared : SetsOverflow s (s.compared dist) dist := by
  have hovf : (s.compared dist).ovf = (s.ovf || (List.range (states s)).any fun st =>
      s.active (skipOf s) st && (s.withDist dist).candidateOverflows st) := rfl
  rw [SetsOverflow, hovf, Bool.or_eq_true, List.any_eq_true]
  simp only [List.mem_range, Bool.and_eq_true, State.active_iff, candidateOverflows_iff]
  refine or_congr_right (exists_congr fun st => ?_)
  rw [and_assoc, and_self_left]

variable {s} (h : s.DecoderOk)

include h

/-- `HIST[HIDX]` after the compares (R165). -/
theorem recordsSurvivors_compared : RecordsSurvivors s (s.compared dist) dist := by
  intro st hst
  have hring : s.hidx.toNat < s.hist.length := h.ring ▸ h.hidx
  have hslot : st < (s.hist.getD s.hidx.toNat []).length := by
    rw [List.getD_eq_getElem _ _ hring, h.slots _ (List.getElem_mem hring)]
    exact hst
  have hself (slot : List Bool) : (s.hist.set s.hidx.toNat slot).getD s.hidx.toNat [] = slot := by
    rw [List.getD_eq_getElem _ _ (by rwa [List.length_set]), List.getElem_set_self]
  have hhist : (s.compared dist).hist = s.hist.set s.hidx.toNat (replaceAt (s.hist.getD s.hidx.toNat [])
      (s.active (skipOf s)) (s.withDist dist).survivor) := rfl
  have hbit : (s.compared dist).histBit s.hidx.toNat st =
      if s.active (skipOf s) st = true then (s.withDist dist).survivor st
      else s.histBit s.hidx.toNat st := by
    rw [State.histBit, hhist, hself, replaceAt_getD]
    exact if_congr (and_iff_right hslot) rfl rfl
  rw [hbit, ← survivor_eq]
  exact ⟨fun hdvd => if_pos (State.active_iff.mpr ⟨hst, hdvd⟩),
    fun hdvd => if_neg fun ha => hdvd (State.active_iff.mp ha).2⟩

/-- A compared state gets the metric that survives (R165). -/
theorem toNat_compared_active {st : Nat} (ha : s.active (skipOf s) st = true) :
    ((s.compared dist).writeBank.getD st 0).toNat = survivorOf s dist st := by
  rw [writeBank_compared, replaceAt_getD, if_pos ⟨h.lt_length_writeBank (State.lt_of_active ha), ha⟩,
    toNat_survivorMetric_eq]

omit h in
/-- The other states keep their stale metric (R165). -/
theorem toNat_compared_stale {st : Nat} (ha : ¬ s.active (skipOf s) st = true) :
    ((s.compared dist).writeBank.getD st 0).toNat = writePM s st := by
  rw [writeBank_compared, replaceAt_getD, if_neg fun c => ha c.2, writePM_eq]

end Compared

end Sys2Proof.Machine
end

section
/-! The search (R169): it finds the lowest-numbered of the states of least metric. -/

namespace Sys2Proof.Machine

open Sys2Proof Sys2Proof.Claims

/-- `acc` is what the search knows after it has looked at the states below `n`: its state is active and its
metric bounds theirs from below, with the lowest number among equals. -/
structure State.SearchedBelow (s : State) (skip n : Nat) (acc : Nat × Nat) : Prop where
  active : s.active skip acc.1 = true
  metric : (s.writeBank.getD acc.1 0).toNat ≤ acc.2
  below : acc.1 ≤ n
  least : ∀ st < n, s.active skip st = true → acc.2 ≤ (s.writeBank.getD st 0).toNat
  lowest : ∀ st < n, s.active skip st = true → (s.writeBank.getD st 0).toNat = acc.2 → acc.1 ≤ st

/-- Before the first comparison the search has state 0 and the greatest metric. -/
theorem State.SearchedBelow.zero (s : State) (skip : Nat) : s.SearchedBelow skip 0 (0, 65535) where
  active := s.active_zero skip
  metric := Nat.le_of_lt_succ (BitVec.isLt _)
  below := le_rfl
  least st hst := absurd hst (Nat.not_lt_zero st)
  lowest st hst := absurd hst (Nat.not_lt_zero st)

/-- One comparison takes state `n` in. -/
theorem State.SearchedBelow.succ {s : State} {skip n : Nat} {acc : Nat × Nat}
    (h : s.SearchedBelow skip n acc) : s.SearchedBelow skip (n + 1) (s.searchStep skip acc n) := by
  unfold State.searchStep
  split
  next hc =>
    obtain ⟨hactive, hlt⟩ := Bool.and_eq_true_iff.mp hc
    have hless : (s.writeBank.getD n 0).toNat < acc.2 := of_decide_eq_true hlt
    refine ⟨hactive, le_rfl, Nat.le_succ n, fun st hst ha => ?_, fun st hst ha heq => ?_⟩
    · rcases Nat.lt_succ_iff_lt_or_eq.mp hst with hst | rfl
      · exact hless.le.trans (h.least st hst ha)
      · exact le_rfl
    · rcases Nat.lt_succ_iff_lt_or_eq.mp hst with hst | rfl
      · have hbound := h.least st hst ha
        dsimp only at heq
        omega
      · exact le_rfl
  next hc =>
    have hge (ha : s.active skip n = true) : acc.2 ≤ (s.writeBank.getD n 0).toNat := by
      simpa [ha] using hc
    refine ⟨h.active, h.metric, h.below.trans (Nat.le_succ n), fun st hst ha => ?_,
      fun st hst ha heq => ?_⟩
    · rcases Nat.lt_succ_iff_lt_or_eq.mp hst with hst | rfl
      · exact h.least st hst ha
      · exact hge ha
    · rcases Nat.lt_succ_iff_lt_or_eq.mp hst with hst | rfl
      · exact h.lowest st hst ha heq
      · exact h.below

theorem State.searchedBelow_foldl (s : State) (skip n : Nat) :
    s.SearchedBelow skip n ((List.range n).foldl (s.searchStep skip) (0, 65535)) := by
  induction n with
  | zero => exact .zero s skip
  | succ n ih =>
    rw [List.range_succ, List.foldl_append]
    exact ih.succ

/-- The search finds the active state of least metric, the lowest-numbered among equals (R169). -/
theorem State.search_spec (s : State) (skip : Nat) {st : Nat} (ha : s.active skip st = true) :
    (s.writeBank.getD (s.search skip) 0).toNat ≤ (s.writeBank.getD st 0).toNat ∧
    ((s.writeBank.getD st 0).toNat = (s.writeBank.getD (s.search skip) 0).toNat → s.search skip ≤ st) := by
  have found := s.searchedBelow_foldl skip s.stateCount
  rw [State.search_eq]
  have hle := found.least _ (State.lt_of_active found.active) found.active
  have heq := le_antisymm found.metric hle
  have hst := State.lt_of_active ha
  exact ⟨heq.trans_le (found.least st hst ha), fun e => found.lowest st hst ha (e.trans heq)⟩

/-- The state that the history processing of an inner or tail slice searches for (R168, R169). -/
def State.best (s : State) (dist : List Metric) : Nat :=
  (s.compared dist).countSlice.search (skipOf s)

theorem active_compared (s : State) (dist : List Metric) (skip st : Nat) :
    (s.compared dist).countSlice.active skip st = s.active skip st := by
  have hcount : (s.compared dist).countSlice.stateCount = s.stateCount :=
    (SliceFrame.of_acsSlice (s.withDist dist) _).stateCount
  rw [State.active, State.active, hcount]

theorem active_best (s : State) (dist : List Metric) : s.active (skipOf s) (s.best dist) = true := by
  rw [← active_compared s dist]
  exact State.active_search _ _

theorem State.DecoderOk.lowestLeast_best {s : State} (h : s.DecoderOk) (dist : List Metric) :
    LowestLeast s dist (s.best dist) := by
  have hbest := active_best s dist
  obtain ⟨hlt, hdvd⟩ := State.active_iff.mp hbest
  refine ⟨hlt, hdvd, fun st hst hskip => ?_⟩
  have ha : s.active (skipOf s) st = true := State.active_iff.mpr ⟨hst, hskip⟩
  rw [← toNat_compared_active dist h hbest, ← toNat_compared_active dist h ha]
  exact State.search_spec _ _ ((active_compared s dist _ _).trans ha)

end Sys2Proof.Machine
end

section
/-! The history processing of an inner or tail slice (R168, R177, R178): a renormalisation where one is due,
then a burst where the ring is full. -/

namespace Sys2Proof.Machine

open Sys2Proof Sys2Proof.Claims

/-! ## The renormalisation (R177) -/

/-- R168's renormalisation, where the interval is over. -/
def State.renormaliseIfDue (s : State) (b : Nat) : State :=
  if s.rcnt = s.rint then { s.renormalise b with rcnt := 0 } else s

section ComparedFields

variable (s : State) (dist : List Metric)

@[simp] theorem State.order_compared : (s.compared dist).order = s.order := State.order_setWriteBank _ _

@[simp] theorem State.tbmin_compared : (s.compared dist).tbmin = s.tbmin := State.tbmin_setWriteBank _ _

@[simp] theorem State.cap_compared : (s.compared dist).cap = s.cap := State.cap_setWriteBank _ _

@[simp] theorem State.rint_compared : (s.compared dist).rint = s.rint := State.rint_setWriteBank _ _

@[simp] theorem State.hidx_compared : (s.compared dist).hidx = s.hidx := State.hidx_setWriteBank _ _

@[simp] theorem State.hlen_compared : (s.compared dist).hlen = s.hlen := State.hlen_setWriteBank _ _

@[simp] theorem State.rcnt_compared : (s.compared dist).rcnt = s.rcnt := State.rcnt_setWriteBank _ _

@[simp] theorem State.outq_compared : (s.compared dist).outq = s.outq := State.outq_setWriteBank _ _

end ComparedFields

theorem State.renormaliseIfDue_of_due {s : State} (b : Nat) (h : s.rcnt = s.rint) :
    (s.renormaliseIfDue b).rcnt = 0 ∧ (s.renormaliseIfDue b).writeBank = (s.renormalise b).writeBank := by
  rw [State.renormaliseIfDue, if_pos h]
  exact ⟨rfl, rfl⟩

theorem State.renormaliseIfDue_of_not_due {s : State} (b : Nat) (h : s.rcnt ≠ s.rint) :
    s.renormaliseIfDue b = s := if_neg h

/-- A renormalised trellis state has its metric less that of `b`, modulo 2^16 (R177). -/
theorem State.toNat_renormalise {s : State} (b : Nat) {st : Nat} (hlen : st < s.writeBank.length)
    (hst : st < s.stateCount) : ((s.renormalise b).writeBank.getD st 0).toNat =
      ((s.writeBank.getD st 0).toNat + 65536 - (s.writeBank.getD b 0).toNat) % 65536 := by
  have hlt := (s.writeBank.getD b 0).isLt
  rw [State.writeBank_renormalise, replaceAt_getD, if_pos ⟨hlen, decide_eq_true hst⟩, BitVec.toNat_sub]
  congr 1
  omega

/-- A renormalisation leaves the ring, its counters and `OUTQ`. -/
theorem State.renormaliseIfDue_keeps (s : State) (b : Nat) :
    let t := s.renormaliseIfDue b
    t.tbmin = s.tbmin ∧ t.cap = s.cap ∧ t.hist = s.hist ∧ t.hidx = s.hidx ∧ t.hlen = s.hlen ∧
    t.outq = s.outq ∧ t.ovf = s.ovf := by
  unfold State.renormaliseIfDue
  split
  · exact ⟨s.tbmin_renormalise b, s.cap_renormalise b, s.hist_renormalise b, s.hidx_renormalise b,
      s.hlen_renormalise b, s.outq_renormalise b, s.ovf_renormalise b⟩
  · exact ⟨rfl, rfl, rfl, rfl, rfl, rfl, rfl⟩

/-- A burst writes `OUTQ` and `HLEN` only. -/
theorem State.emitIfFull_frame (s : State) (b : Nat) : s.emitIfFull b = { s with
    outq := (s.emitIfFull b).outq, hlen := (s.emitIfFull b).hlen } := by
  unfold State.emitIfFull
  split <;> rfl

theorem State.emitIfFull_of_full {s : State} (b : Nat) (h : s.hlen = s.cap) :
    s.emitIfFull b = s.traceback b s.tbmin.toNat := if_pos h

theorem State.emitIfFull_of_room {s : State} (b : Nat) (h : s.hlen ≠ s.cap) : s.emitIfFull b = s := if_neg h

/-- The state after an inner or tail slice, but for the burst and the end of the slice (R168). -/
def State.beforeBurst (s : State) (dist : List Metric) : State :=
  (s.compared dist).countSlice.renormaliseIfDue (s.best dist)

/-- Past the warm-up a step is the compares, the count, the renormalisation where due, and the burst where
the ring is full (R168). -/
theorem State.trellisStep_of_pastWarmUp {s : State} (dist : List Metric)
    (h : s.order.toNat - 1 ≤ s.slice.toNat) :
    s.trellisStep dist = ((s.beforeBurst dist).emitIfFull (s.best dist)).endSlice := by
  rcases (s.withDist dist).slicePhase_cases with ⟨hw, _⟩ | ⟨hp, e⟩
  · have hw' : s.slice.toNat + 2 ≤ s.order.toNat := hw
    omega
  · have hskip : (s.withDist dist).phase.skip = skipOf s := State.skip_phase hp
    rw [State.trellisStep_eq, e, hskip, State.history_eq]
    rfl

section PastWarmUp

variable {s : State} (dist : List Metric) (h : s.order.toNat - 1 ≤ s.slice.toNat)

include h

theorem readPM_pastWarmUp (k : Nat) :
    readPM (s.trellisStep dist) k = ((s.beforeBurst dist).writeBank.getD k 0).toNat := by
  rw [readPM_eq, State.trellisStep_of_pastWarmUp dist h, State.readBank_endSlice,
    State.writeBank_emitIfFull]

theorem rcnt_pastWarmUp : (s.trellisStep dist).rcnt = (s.beforeBurst dist).rcnt := by
  rw [State.trellisStep_of_pastWarmUp dist h, State.emitIfFull_frame]
  rfl

theorem hidx_pastWarmUp : (s.trellisStep dist).hidx =
    BitVec.ofNat 16 ((s.hidx.toNat + 1) % s.cap.toNat) := by
  obtain ⟨-, -, -, hhidx, -⟩ := (s.compared dist).countSlice.renormaliseIfDue_keeps (s.best dist)
  rw [State.trellisStep_of_pastWarmUp dist h, State.emitIfFull_frame]
  refine hhidx.trans ?_
  rw [State.hidx_countSlice, State.hidx_compared, State.cap_compared]

theorem hist_pastWarmUp : (s.trellisStep dist).hist = (s.compared dist).hist := by
  obtain ⟨-, -, hhist, -⟩ := (s.compared dist).countSlice.renormaliseIfDue_keeps (s.best dist)
  rw [State.trellisStep_of_pastWarmUp dist h, State.emitIfFull_frame]
  exact hhist

theorem ovf_pastWarmUp : (s.trellisStep dist).ovf = (s.compared dist).ovf := by
  obtain ⟨-, -, -, -, -, -, hovf⟩ := (s.compared dist).countSlice.renormaliseIfDue_keeps (s.best dist)
  rw [State.trellisStep_of_pastWarmUp dist h, State.emitIfFull_frame]
  exact hovf

theorem setsOverflow_pastWarmUp : SetsOverflow s (s.trellisStep dist) dist := by
  rw [SetsOverflow, ovf_pastWarmUp dist h]
  exact setsOverflow_compared s dist

theorem recordsSurvivors_pastWarmUp (hd : s.DecoderOk) : RecordsSurvivors s (s.trellisStep dist) dist := by
  have hbit (idx st : Nat) : (s.trellisStep dist).histBit idx st = (s.compared dist).histBit idx st := by
    rw [State.histBit, hist_pastWarmUp dist h, State.histBit]
  simp only [RecordsSurvivors, hbit]
  exact recordsSurvivors_compared dist hd

end PastWarmUp

theorem State.DecoderOk.toNat_rcnt_counted {s : State} (h : s.DecoderOk) (dist : List Metric) :
    (s.compared dist).countSlice.rcnt.toNat = s.rcnt.toNat + 1 := by
  rw [State.toNat_rcnt_countSlice (by rw [State.rcnt_compared, State.rint_compared]; exact h.rcnt),
    State.rcnt_compared]

theorem State.DecoderOk.toNat_hlen_counted {s : State} (h : s.DecoderOk) (dist : List Metric) :
    (s.compared dist).countSlice.hlen.toNat = s.hlen.toNat + 1 := by
  rw [State.toNat_hlen_countSlice (by rw [State.hlen_compared, State.cap_compared]; exact h.hlen),
    State.hlen_compared]

/-- The interval is over at the `RINT`-th slice (R168). -/
theorem State.DecoderOk.due_iff {s : State} (h : s.DecoderOk) (dist : List Metric) :
    (s.compared dist).countSlice.rcnt = (s.compared dist).countSlice.rint ↔
      s.rcnt.toNat + 1 = s.rint.toNat := by
  have hrint : (s.compared dist).countSlice.rint = s.rint := s.rint_compared dist
  rw [BitVec.toNat_eq, h.toNat_rcnt_counted, hrint]

/-- Settles O52: where no renormalisation is due the bank is that of the compares. -/
theorem innerAndTailSlicesAddCompareSelect : Obligations.InnerAndTailSlicesAddCompareSelect := by
  intro i s dist _ hd hleft hi hp hnot
  have hbefore : s.beforeBurst dist = (s.compared dist).countSlice :=
    State.renormaliseIfDue_of_not_due _ fun e => hnot ((hd.due_iff dist).mp e)
  refine ⟨_, exec_of_stepsWith hi hleft, ?_, fun st hst => ⟨fun hdvd => ?_, fun hdvd => ?_⟩,
    recordsSurvivors_pastWarmUp dist hp hd, setsOverflow_pastWarmUp dist hp⟩
  · rw [rcnt_pastWarmUp dist hp, hbefore, hd.toNat_rcnt_counted]
  · rw [readPM_pastWarmUp dist hp, hbefore]
    exact toNat_compared_active dist hd (State.active_iff.mpr ⟨hst, hdvd⟩)
  · rw [readPM_pastWarmUp dist hp, hbefore]
    exact toNat_compared_stale dist fun ha => hdvd (State.active_iff.mp ha).2

/-- Where a renormalisation is due, every trellis state loses the metric of the best one (R168, R177). -/
theorem toNat_beforeBurst_of_due {s : State} (hd : s.DecoderOk) (dist : List Metric)
    (hdue : s.rcnt.toNat + 1 = s.rint.toNat) {st : Nat} (hst : st < states s) :
    ((s.beforeBurst dist).writeBank.getD st 0).toNat =
      (((s.compared dist).writeBank.getD st 0).toNat + 65536 - survivorOf s dist (s.best dist)) % 65536 := by
  have hlen : st < (s.compared dist).countSlice.writeBank.length := by
    change st < (s.compared dist).writeBank.length
    rw [writeBank_compared, replaceAt_length]
    exact hd.lt_length_writeBank hst
  have hcount : st < (s.compared dist).countSlice.stateCount := by
    change st < 2 ^ ((s.compared dist).order.toNat - 1)
    rwa [State.order_compared]
  have hbank := (State.renormaliseIfDue_of_due (s.best dist) ((hd.due_iff dist).mpr hdue)).2
  rw [State.beforeBurst, hbank, State.toNat_renormalise _ hlen hcount,
    ← toNat_compared_active dist hd (active_best s dist)]
  rfl

/-- Settles O53: the state subtracted is the one that the search finds, and at the states just compared the
difference does not wrap. -/
theorem renormalisationSubtractsTheLeastMetric : Obligations.RenormalisationSubtractsTheLeastMetric := by
  intro i s dist _ hd hleft hi hp hdue
  obtain ⟨hlt, hskip, hleast⟩ := hd.lowestLeast_best dist
  refine ⟨_, s.best dist, exec_of_stepsWith hi hleft, ⟨hlt, hskip, hleast⟩, ?_,
    fun st hst => ⟨fun hdvd => ?_, fun hdvd => ?_⟩, recordsSurvivors_pastWarmUp dist hp hd,
    setsOverflow_pastWarmUp dist hp⟩
  · rw [rcnt_pastWarmUp dist hp]
    exact (State.renormaliseIfDue_of_due _ ((hd.due_iff dist).mpr hdue)).1
  · have hactive := toNat_compared_active dist hd (State.active_iff.mpr ⟨hst, hdvd⟩)
    have hbound := ((s.compared dist).writeBank.getD st 0).isLt
    have hle := (hleast st hst hdvd).1
    rw [readPM_pastWarmUp dist hp, toNat_beforeBurst_of_due hd dist hdue hst]
    omega
  · rw [readPM_pastWarmUp dist hp, toNat_beforeBurst_of_due hd dist hdue hst,
      toNat_compared_stale dist fun ha => hdvd (State.active_iff.mp ha).2]

/-! ## The burst of a full ring (R168, R178) -/

/-- A path back rests on the ring, its extent and the order alone. -/
theorem State.pathBits_congr {s t : State} (hcap : t.cap = s.cap) (hhist : t.hist = s.hist)
    (horder : t.order = s.order) (n idx st : Nat) : t.pathBits n idx st = s.pathBits n idx st := by
  induction n generalizing idx st with
  | zero => rfl
  | succ n ih =>
    simp only [State.pathBits, ih, State.slotBefore, State.histBit, State.predecessor, hcap, hhist, horder]

/-- The bits of the path back from `b` over the whole ring but for the newest `TBMIN`, oldest first (R178). -/
def State.oldestBits (s : State) (b : Nat) : List Bool :=
  ((s.pathBits s.cap.toNat s.hidx.toNat b).drop s.tbmin.toNat).reverse

theorem State.length_oldestBits (s : State) (b : Nat) :
    (s.oldestBits b).length = s.cap.toNat - s.tbmin.toNat := by
  rw [State.oldestBits, List.length_reverse, List.length_drop, State.length_pathBits]

theorem State.oldestBits_congr {s t : State} (hcap : t.cap = s.cap) (hhist : t.hist = s.hist)
    (horder : t.order = s.order) (hhidx : t.hidx = s.hidx) (htbmin : t.tbmin = s.tbmin) (b : Nat) :
    t.oldestBits b = s.oldestBits b := by
  rw [State.oldestBits, State.pathBits_congr hcap hhist horder, hcap, hhidx, htbmin, State.oldestBits]

/-- A full ring emits its oldest bits, also in the words of the state after the step (R178). -/
theorem State.outq_of_full {s : State} (b : Nat) (hfull : s.hlen = s.cap) :
    (s.emitIfFull b).endSlice.outq = s.outq ++ (s.emitIfFull b).endSlice.oldestBits b := by
  have hbits : (s.emitIfFull b).endSlice.oldestBits b = s.oldestBits b := by
    rw [State.emitIfFull_frame]
    apply State.oldestBits_congr <;> rfl
  have houtq : (s.emitIfFull b).endSlice.outq = (s.emitIfFull b).outq := rfl
  rw [hbits, houtq, State.emitIfFull_of_full b hfull, State.traceback_eq, State.oldestBits, hfull]

/-- The ring before the burst: one slot more, nothing emitted (R168). -/
theorem State.DecoderOk.ring_beforeBurst {s : State} (h : s.DecoderOk) (dist : List Metric) :
    (s.beforeBurst dist).tbmin = s.tbmin ∧ (s.beforeBurst dist).cap = s.cap ∧
    (s.beforeBurst dist).hlen.toNat = s.hlen.toNat + 1 ∧ (s.beforeBurst dist).outq = s.outq := by
  obtain ⟨htbmin, hcap, -, -, hhlen, houtq, -⟩ :=
    (s.compared dist).countSlice.renormaliseIfDue_keeps (s.best dist)
  exact ⟨htbmin.trans (s.tbmin_compared dist), hcap.trans (s.cap_compared dist),
    (congrArg BitVec.toNat hhlen).trans (h.toNat_hlen_counted dist), houtq.trans (s.outq_compared dist)⟩

/-- Settles O54: the ring is full exactly where the slot counted is its last, and its traceback keeps
`TBMIN` of `CAP` bits. -/
theorem aFullRingEmitsOneBurst : Obligations.AFullRingEmitsOneBurst := by
  intro i s dist _ hd hleft hi hp
  obtain ⟨htbmin, hcap, hhlen, houtq⟩ := hd.ring_beforeBurst dist
  have hstep := State.trellisStep_of_pastWarmUp dist hp
  refine ⟨_, exec_of_stepsWith hi hleft, ?_, fun hroom => ?_, fun hfull => ?_⟩
  · have hlt : (s.hidx.toNat + 1) % s.cap.toNat < 2 ^ 16 :=
      (Nat.mod_lt _ (Nat.zero_lt_of_lt hd.hidx)).trans s.cap.isLt
    rw [hidx_pastWarmUp dist hp, BitVec.toNat_ofNat, Nat.mod_eq_of_lt hlt]
  · have hne : (s.beforeBurst dist).hlen ≠ (s.beforeBurst dist).cap := fun e =>
      hroom (hhlen.symm.trans (congrArg BitVec.toNat (e.trans hcap)))
    rw [hstep, State.emitIfFull_of_room _ hne]
    exact ⟨houtq, hhlen⟩
  · have heq : (s.beforeBurst dist).hlen = (s.beforeBurst dist).cap :=
      BitVec.eq_of_toNat_eq (by rw [hhlen, hcap, hfull])
    refine ⟨s.best dist, (s.trellisStep dist).oldestBits (s.best dist), hd.lowestLeast_best dist, ?_, rfl,
      ?_, ?_⟩
    · rw [hstep, State.outq_of_full _ heq, houtq]
    · have hcap' : (s.trellisStep dist).cap = s.cap := by rw [s.trellisStep_frame dist]
      have htbmin' : (s.trellisStep dist).tbmin = s.tbmin := by rw [s.trellisStep_frame dist]
      rw [State.length_oldestBits, hcap', htbmin', hd.cap, hd.tbmin, hd.tbburst]
      omega
    · have hle : (s.beforeBurst dist).tbmin.toNat ≤ (s.beforeBurst dist).hlen.toNat := by
        rw [htbmin, hhlen, hd.tbmin, hfull, hd.cap]
        omega
      have hkept := State.toNat_hlen_traceback (s.best dist) hle
      rw [htbmin] at hkept
      rw [hstep, State.emitIfFull_of_full _ heq, htbmin]
      exact BitVec.eq_of_toNat_eq hkept

end Sys2Proof.Machine
end

section
/-! The encoder (R200 to R202): `ESR` shifts as arithmetic modulo `2^ORDER`, and what each of the two
commands completes or faults with. -/

namespace Sys2Proof.Machine

open Sys2Proof Sys2Proof.Claims

/-! ## The shift register (R202) -/

/-- The bit enters at the free low end, so the disjunction is a sum, and the mask of `ORDER` ones is a
remainder. -/
theorem State.shiftedEsr_eq (s : State) {bit : Word} (h : bit.toNat ≤ 1) :
    s.shiftedEsr bit = BitVec.ofNat 16 ((2 * s.esr.toNat + bit.toNat) % 2 ^ s.order.toNat) := by
  have hor : s.esr.toNat <<< 1 ||| bit.toNat = 2 * s.esr.toNat + bit.toNat := by
    have hlow : bit.toNat < 2 ^ 1 := Nat.lt_succ_of_le h
    rw [← Nat.shiftLeft_add_eq_or_of_lt hlow, Nat.shiftLeft_eq, pow_one, Nat.mul_comm]
  rw [State.shiftedEsr, State.registerCount, hor, Nat.and_two_pow_sub_one_eq_mod]

/-! ## The checks (R201, R202) -/

/-- A command that first asks for a code faults with `Sequence` in a block that has none. -/
theorem firstCause_unconf {s : State} (hs : s.vstate = .unconf) (l : List Check) :
    firstCause (noCode s :: l) = some .sequence := by
  simp [noCode, hs]

/-- In a configured block the other conditions decide. -/
theorem firstCause_configured {s : State} (hs : s.vstate ≠ .unconf) (l : List Check) :
    firstCause (noCode s :: l) = firstCause l := by
  simp [noCode, hs]

/-! ## `ENC.RST` (R201) -/

theorem exec_encRst_faults {s : State} (hs : s.vstate = .unconf) : Faults .encRst s .sequence := by
  have arm : exec .encRst s = execEncRst s := rfl
  exact arm.trans (attempt_of_some (firstCause_unconf hs _))

theorem exec_encRst_completes {s : State} (hs : s.vstate ≠ .unconf) :
    exec .encRst s = .next { s with esr := 0 } := by
  have arm : exec .encRst s = execEncRst s := rfl
  exact arm.trans (attempt_of_none (firstCause_configured hs _))

/-! ## `ENC.BIT` (R202) -/

theorem exec_encBit_faults_sequence (d a : XReg) {s : State} (hs : s.vstate = .unconf) :
    Faults (.encBit d a) s .sequence := by
  have arm : exec (.encBit d a) s = execEncBit d a s := rfl
  exact arm.trans (attempt_of_some (firstCause_unconf hs _))

theorem exec_encBit_faults_range (d : XReg) {a : XReg} {s : State} (hs : s.vstate ≠ .unconf)
    (h : 1 < xv s a) : Faults (.encBit d a) s .operandRange := by
  have arm : exec (.encBit d a) s = execEncBit d a s := rfl
  have hrange : 1 < (s.getX a).toNat := h
  exact arm.trans (attempt_of_some (by rw [firstCause_configured hs]; simp [hrange]))

/-- The symbol is looked up at the new register value, not the old one. -/
theorem exec_encBit_completes (d : XReg) {a : XReg} {s : State} (hs : s.vstate ≠ .unconf)
    (h : xv s a ≤ 1) :
    exec (.encBit d a) s = .next (({ s with esr := s.shiftedEsr (s.getX a) } : State).setX d
      (ext8 (s.outtab.getD (s.shiftedEsr (s.getX a)).toNat 0))) := by
  have arm : exec (.encBit d a) s = execEncBit d a s := rfl
  have hrange : ¬ 1 < (s.getX a).toNat := Nat.not_lt.mpr h
  exact arm.trans (attempt_of_none (by rw [firstCause_configured hs]; simp [hrange]))

/-- Settles O60: `Sequence` before the range; the shifted register is `State.shiftedEsr_eq`. -/
theorem theEncoderShiftsAndLooksUp : Obligations.TheEncoderShiftsAndLooksUp := by
  intro d a s
  refine ⟨fun hs => ⟨exec_encRst_faults hs, exec_encBit_faults_sequence d a hs⟩,
    fun hs => ⟨exec_encRst_completes hs, exec_encBit_faults_range d hs, fun hbit => ?_⟩⟩
  rw [exec_encBit_completes d hs hbit, s.shiftedEsr_eq hbit]
  rfl

end Sys2Proof.Machine
end

section
/-! The scalar moves and the system commands (R210 to R214): the two immediates as numbers, and the one
effect each of the five commands has. -/

namespace Sys2Proof.Machine

open Sys2Proof Sys2Proof.Claims

/-! ## The immediates (R211, R212) -/

/-- Below `0x8000` the sign bit of the immediate is 0; from there on the upper half is all ones. -/
theorem toNat_sext32 (imm : BitVec 16) :
    (sext32 imm).toNat = if imm.toNat < 0x8000 then imm.toNat else 0xFFFF0000 + imm.toNat := by
  have hwide : (imm.setWidth 32).toNat = imm.toNat := BitVec.toNat_setWidth_of_le (by omega)
  rw [sext32, BitVec.toNat_signExtend, hwide, BitVec.msb_eq_decide]
  by_cases hsign : imm.toNat < 0x8000
  · have hpos : ¬ 2 ^ (16 - 1) ≤ imm.toNat := Nat.not_le.mpr hsign
    rw [if_pos hsign, decide_eq_false hpos]
    rfl
  · have hneg : 2 ^ (16 - 1) ≤ imm.toNat := Nat.not_lt.mp hsign
    rw [if_neg hsign, decide_eq_true hneg]
    exact Nat.add_comm _ _

/-- The two halves do not overlap, so the disjunction is a sum. -/
theorem toNat_upperHalf (imm : BitVec 16) (old : Word) :
    (upperHalf imm old).toNat = 65536 * imm.toNat + old.toNat % 65536 := by
  have hlow : (old &&& 0xFFFF#32).toNat = old.toNat % 2 ^ 16 := by
    rw [BitVec.toNat_and]
    exact Nat.and_two_pow_sub_one_eq_mod old.toNat 16
  have hhigh : (imm.setWidth 32 <<< 16).toNat = imm.toNat <<< 16 := by
    have hfit : imm.toNat <<< 16 < 2 ^ 32 := by
      rw [Nat.shiftLeft_eq]
      have := imm.isLt
      omega
    rw [BitVec.toNat_shiftLeft, BitVec.toNat_setWidth_of_le (by omega), Nat.mod_eq_of_lt hfit]
  calc (upperHalf imm old).toNat
      = imm.toNat <<< 16 ||| old.toNat % 2 ^ 16 := by rw [upperHalf, BitVec.toNat_or, hhigh, hlow]
    _ = imm.toNat <<< 16 + old.toNat % 2 ^ 16 :=
        (Nat.shiftLeft_add_eq_or_of_lt (Nat.mod_lt _ (Nat.two_pow_pos 16)) _).symm
    _ = 65536 * imm.toNat + old.toNat % 65536 := by rw [Nat.shiftLeft_eq, Nat.mul_comm]

/-! ## The commands -/

theorem exec_nop (s : State) : exec .nop s = .next s := rfl

theorem exec_li (d : XReg) (imm : BitVec 16) (s : State) :
    exec (.li d imm) s = .next (s.setX d (sext32 imm)) := rfl

theorem exec_lih (d : XReg) (imm : BitVec 16) (s : State) :
    exec (.lih d imm) s = .next (s.setX d (upperHalf imm (s.getX d))) := rfl

theorem exec_mov (d a : XReg) (s : State) : exec (.mov d a) s = .next (s.setX d (s.getX a)) := rfl

theorem exec_clrf (s : State) : exec .clrf s = .next s.clearLatch := rfl

/-- Settles O7: `CLRF` is `State.clearLatch`, in each of its two cases. -/
theorem clrfClearsTheLatchAndNothingElse : Obligations.ClrfClearsTheLatchAndNothingElse := by
  intro s
  exact ⟨fun hlatched => by rw [exec_clrf, State.clearLatch_of_fault hlatched],
    fun hclear => by rw [exec_clrf, State.clearLatch_of_clear hclear]⟩

/-- Settles O23: each of the four commands writes what its equation says; the immediates are
`toNat_sext32` and `toNat_upperHalf`. -/
theorem scalarMovesWriteTheirDestinationOnly : Obligations.ScalarMovesWriteTheirDestinationOnly := by
  intro d a imm s
  exact ⟨exec_nop s, ⟨sext32 imm, exec_li d imm s, toNat_sext32 imm⟩,
    ⟨upperHalf imm (s.getX d), exec_lih d imm s, toNat_upperHalf imm (s.getX d)⟩, exec_mov d a s⟩

end Sys2Proof.Machine
end

section
/-! The faults (R260 to R265). The conditions of each command report what its row of R265's table reports
(`tableChecks`), so a command either takes the first fault of its row or completes with the latch as it
was (`answers_tableChecks`); the rules of one step follow (R260, R262, R263). -/

namespace Sys2Proof.Machine

open Sys2Proof Sys2Proof.Claims

variable {i : Instr} {s t : State} {c : Cause}

/-! ## Conditions side by side -/

theorem raises_true (c : Cause) (b : Bool) : raises c (b = true) = (b, c) := by
  simp [raises]

theorem raises_false (c : Cause) (b : Bool) : raises c (b = false) = (!b, c) := by
  cases b <;> rfl

theorem raises_ne {α : Type} [DecidableEq α] (c : Cause) (x y : α) :
    raises c (x ≠ y) = (x != y, c) := by
  by_cases h : x = y <;> simp [raises, h]

theorem raises_or (c : Cause) (p q : Prop) [Decidable p] [Decidable q] :
    raises c (p ∨ q) = ((raises c p).1 || (raises c q).1, c) :=
  congrArg (·, c) (Bool.decide_or p q)

/-- The rest of a list counts by what it reports. -/
theorem firstCause_congr {a b : Check} {l l' : List Check} (hhead : a = b)
    (htail : firstCause l = firstCause l') : firstCause (a :: l) = firstCause (b :: l') := by
  rw [firstCause_cons, firstCause_cons, hhead, htail]

/-- Two conditions in a row with one cause are one condition. -/
theorem firstCause_merge (c : Cause) (p q : Bool) (l : List Check) :
    firstCause ((p, c) :: (q, c) :: l) = firstCause ((p || q, c) :: l) := by
  cases p <;> rfl

theorem firstCause_raises_raises (c : Cause) (p q : Prop) [Decidable p] [Decidable q]
    (l : List Check) : firstCause (raises c p :: raises c q :: l) = firstCause (raises c (p ∨ q) :: l) := by
  rw [raises_or]
  exact firstCause_merge c _ _ l

theorem firstCause_raises_eq_some {c' : Cause} {p : Prop} [Decidable p] {l : List Check} :
    firstCause (raises c' p :: l) = some c ↔ (c = c' ∧ p) ∨ (¬ p ∧ firstCause l = some c) := by
  by_cases h : p <;> simp [h, eq_comm]

theorem firstCause_single_eq_some {c' : Cause} {p : Prop} [Decidable p] :
    firstCause [raises c' p] = some c ↔ c = c' ∧ p := by
  rw [firstCause_raises_eq_some, firstCause_nil]
  simp

/-! ## The row of a command in R265's table -/

/-- The value-dependent conditions of a command (R264, class 6), as checks. -/
def valueChecks (s : State) : Instr → List Check
  | .gfBuild a => [raises .primitivePoly (primRefused (s.getX a))]
  | .gfDiv _ _ b => [raises .divideByZero (s.getX b = 0)]
  | .pMod _ _ b => [raises .divideByZero ((s.getP b).coef (s.getP b).deg = 0)]
  | .vtCfg a b =>
    [raises .rate (xv s a < 2 ∨ 8 < xv s a), raises .order (xv s b < 2 ∨ 16 < xv s b)]
  | .vtReset a => [raises .length (xv s a < 2 * s.order.toNat - 2)]
  | _ => []

/-- The row of R265's table as checks, in R264's order. -/
def tableChecks (s : State) (i : Instr) : List Check :=
  (sequenceWhen s i, .sequence) :: (rangeWhen s i, .operandRange) :: (aliasWhen i, .aliased) ::
    (capacityWhen s i, .capacity) :: valueChecks s i

/-- The value-dependent checks report the cause that the table gives. -/
theorem firstCause_valueChecks : firstCause (valueChecks s i) = some c ↔ ValueCause s i c := by
  cases i with
  | gfBuild a =>
    have hrefused : primRefused (s.getX a) ↔ ¬ Primitive (xv s a) :=
      (not_iff_comm.mp (not_primRefused_iff (s.getX a))).symm
    exact firstCause_single_eq_some.trans (and_congr_right fun _ => hrefused)
  | gfDiv _ _ b =>
    have hzero : s.getX b = 0 ↔ xv s b = 0 := (BitVec.toNat_inj (y := (0 : Word))).symm
    exact firstCause_single_eq_some.trans (and_congr_right fun _ => hzero)
  | pMod | vtReset => exact firstCause_single_eq_some
  | vtCfg a b =>
    have hrate : ¬ (xv s a < 2 ∨ 8 < xv s a) ↔ 2 ≤ xv s a ∧ xv s a ≤ 8 := by omega
    rw [valueChecks, ValueCause, firstCause_raises_eq_some, firstCause_single_eq_some, hrate]
    exact or_congr_right and_left_comm
  | _ => exact iff_of_false (Option.some_ne_none c).symm id

/-! ## Every command answers its row (R262, R264, R265) -/

/-- The latch of `t` is that of `s`. -/
def State.SameLatch (s t : State) : Prop := t.fault = s.fault ∧ t.cause = s.cause ∧ t.einfo = s.einfo

/-- The outcome `r` of the command `i` in `s` is what the cause found asks for: that fault, or with no
cause a completion that keeps the latch (but for `CLRF`, which clears it). -/
def Answers (i : Instr) (s : State) (r : Result) : Option Cause → Prop
  | some c => r = .next (s.latch c (encode i))
  | none => ∃ t, r = .next t ∧ (i ≠ .clrf → s.SameLatch t)

theorem Answers.of_attempt {checks : List Check} {effect : State → State} {cause : Option Cause}
    (hkept : s.SameLatch (effect s)) (hrow : firstCause checks = cause) :
    Answers i s (attempt i s checks effect) cause := by
  subst hrow
  rcases attempt_cases i s checks effect with ⟨c, hc, h⟩ | ⟨hn, h⟩
  · rw [hc]; exact h
  · rw [hn]; exact ⟨_, h, fun _ => hkept⟩

theorem State.sameLatch_trellisStep (s : State) (dist : List Metric) :
    s.SameLatch (s.trellisStep dist) := by
  rw [s.trellisStep_frame dist]
  exact ⟨rfl, rfl, rfl⟩

/-- `P.ROOTS` asks for room for one coefficient more than its operand has (R137). -/
theorem pRoots_capacity (d a : PReg) (s : State) :
    raises .capacity (255 < (s.getP a).deg + 1) = (capacityWhen s (.pRoots d a), .capacity) := by
  have hord : (s.getP a).ord.toNat < 256 := (s.getP a).ord.isLt
  have hfull : 255 < (s.getP a).deg + 1 ↔ (s.getP a).ord.toNat = 255 := by unfold PolyReg.deg; omega
  exact congrArg (·, _) (decide_eq_decide.mpr hfull)

/-- The conditions of every command are its row of R265's table. The commands of one case differ from
their rows alike: not at all, in how `Sequence` is tested, or in a condition that is tested in two parts. -/
theorem answers_tableChecks (i : Instr) (s : State) :
    Answers i s (exec i s) (firstCause (tableChecks s i)) := by
  unfold exec
  cases i with
  | nop | li | lih | mov => exact ⟨_, rfl, fun _ => ⟨rfl, rfl, rfl⟩⟩
  | clrf => exact ⟨_, rfl, fun h => absurd rfl h⟩
  | pSetord | pGetord | pStc | pClr | pMov | pDer | pLdci | bmHard | bmSoftl | bmSoftq | bmSymi | vtCfg
  | vtInit | vtMode | vtTab | vtPoly | encRst | encBit => exact .of_attempt ⟨rfl, rfl, rfl⟩ rfl
  | pLdc | bmSym => exact .of_attempt ⟨rfl, rfl, rfl⟩ (firstCause_raises_raises _ _ _ _)
  | gfBuild =>
    exact .of_attempt ⟨rfl, rfl, rfl⟩ (firstCause_congr (raises_true _ s.fvalid) rfl)
  | gfSum | gfPow | gfLog | gfExp | pMod | pEval | pPows | pEvalp | pTolog | pEvall =>
    exact .of_attempt ⟨rfl, rfl, rfl⟩ (firstCause_congr (raises_false _ s.fvalid) rfl)
  | gfAdd | gfSub | gfMul | gfDiv | gfMullog | gfDivlog =>
    refine .of_attempt ⟨rfl, rfl, rfl⟩ (firstCause_congr (raises_false _ s.fvalid) ?_)
    exact firstCause_raises_raises _ _ _ _
  | pMul =>
    refine .of_attempt ⟨rfl, rfl, rfl⟩ (firstCause_congr (raises_false _ s.fvalid) ?_)
    exact firstCause_merge _ _ _ _
  | pRoots d a =>
    refine .of_attempt ⟨rfl, rfl, rfl⟩ (firstCause_congr (raises_false _ s.fvalid) ?_)
    rw [pRoots_capacity d a s]
    rfl
  | vtReset | vtQlen | vtRdq | vtPm =>
    exact .of_attempt ⟨rfl, rfl, rfl⟩ (firstCause_congr (raises_ne _ s.vstate _) rfl)
  | vtSteph | vtSteps =>
    refine .of_attempt (s.sameLatch_trellisStep _) (firstCause_congr ?_ rfl)
    rw [noSlice, raises_or, raises_ne]
    rfl
  | vtFlush =>
    refine .of_attempt ⟨rfl, rfl, rfl⟩ (firstCause_congr ?_ rfl)
    rw [raises_or, raises_ne, raises_ne]
    rfl

theorem faults_of_row (h : firstCause (tableChecks s i) = some c) : Faults i s c := by
  have hanswer := answers_tableChecks i s
  rwa [h] at hanswer

theorem completes_of_row (h : firstCause (tableChecks s i) = none) :
    ∃ t, exec i s = .next t ∧ (i ≠ .clrf → s.SameLatch t) := by
  have hanswer := answers_tableChecks i s
  rwa [h] at hanswer

theorem State.fault_clearLatch (s : State) : s.clearLatch.fault = false := by
  cases hf : s.fault with
  | true => rw [State.clearLatch_of_fault hf]
  | false => rw [State.clearLatch_of_clear hf, hf]

/-- Settles O11: the clauses are the first entry of the row that holds, class by class. -/
theorem faultsAreThoseOfTheTableInPriorityOrder :
    Obligations.FaultsAreThoseOfTheTableInPriorityOrder := by
  intro i s
  refine ⟨fun hs => faults_of_row ?_, fun hs hr => faults_of_row ?_, fun hs hr ha => faults_of_row ?_,
    fun hs hr ha hc => faults_of_row ?_, fun c hs hr ha hc hv => faults_of_row ?_,
    fun hs hr ha hc hv hne => ?_, ?_⟩
  · simp [tableChecks, hs]
  · simp [tableChecks, hs, hr]
  · simp [tableChecks, hs, hr, ha]
  · simp [tableChecks, hs, hr, ha, hc]
  · simp [tableChecks, hs, hr, ha, hc, firstCause_valueChecks.mpr hv]
  · have hnone : firstCause (valueChecks s i) = none :=
      Option.eq_none_iff_forall_ne_some.mpr fun c h => hv c (firstCause_valueChecks.mp h)
    obtain ⟨t, ht, hkept⟩ := completes_of_row (i := i) (s := s)
      (by simp [tableChecks, hs, hr, ha, hc, hnone])
    exact ⟨t, ht, hkept hne⟩
  · rintro rfl
    exact ⟨s.clearLatch, exec_clrf s, s.fault_clearLatch⟩

/-! ## One step (R260, R262, R263) -/

/-- A command that leaves a fault latched that was not has written the latch and nothing else (R262). -/
theorem eq_latch_of_fault (h : exec i s = .next t) (hs : s.fault = false) (ht : t.fault = true) :
    ∃ c, t = s.latch c (encode i) := by
  cases hc : firstCause (tableChecks s i) with
  | some c =>
    have hfaults : Faults i s c := faults_of_row hc
    exact ⟨c, Host.Outcome.next.inj (h.symm.trans hfaults)⟩
  | none =>
    have hclear : t.fault = false := by
      by_cases hclrf : i = .clrf
      · subst hclrf
        cases h
        exact s.fault_clearLatch
      · obtain ⟨t', ht', hkept⟩ := completes_of_row hc
        cases h.symm.trans ht'
        exact (hkept hclrf).1.trans hs
    exact absurd ht (by simp [hclear])

/-- Settles O10: an illegal word latches `IllegalCommand`; a legal one runs its command, whose own word it
is. -/
theorem aFaultWritesOnlyTheLatch : Obligations.AFaultWritesOnlyTheLatch := by
  refine ⟨by decide, fun s t w rest hhost hclear hstep hfault => ?_⟩
  cases hd : decode w with
  | none =>
    rw [step_of_illegal hhost hclear hd] at hstep
    cases hstep
    exact ⟨.illegalCommand, rfl⟩
  | some i =>
    rw [step_of_decoded hhost hclear hd] at hstep
    obtain ⟨c, rfl⟩ := eq_latch_of_fault hstep hclear hfault
    obtain ⟨-, hword⟩ := encodeUndoesDecode w i hd
    exact ⟨c, by rw [hword]; rfl⟩

theorem step_of_idle (hhost : s.host = []) : step s = .next s := by
  simp only [step, State.nextEvent, hhost]

theorem step_total (s : State) : ∃ t, step s = .next t := by
  unfold step
  cases s.nextEvent with
  | settled t => exact ⟨t, rfl⟩
  | run i t => exact exec_total i t

/-- Settles O9: the event settles in a state, or runs a command, and no command stops the machine. -/
theorem everyStepAnswersANextState : Obligations.EveryStepAnswersANextState :=
  fun s => ⟨step_total s, step_of_idle⟩

/-- The events to come are not on the read port. -/
theorem State.hostRead_withHost (s : State) (events : List HostEvent) (n : Nat) :
    ({ s with host := events } : State).hostRead n = s.hostRead n := rfl

theorem step_of_ignored {w : Word} {rest : List HostEvent} (hhost : s.host = .command w :: rest)
    (hlatched : s.fault = true) (hw : w ≠ clrfWord) : step s = .next { s with host := rest } := by
  simp only [step, State.nextEvent, hhost, presentWord, hlatched, if_true, if_neg hw]

theorem step_of_clrf {rest : List HostEvent} (hhost : s.host = .command clrfWord :: rest)
    (hlatched : s.fault = true) : step s = exec .clrf { s with host := rest } := by
  simp only [step, State.nextEvent, hhost, presentWord, hlatched, if_true]

/-- Settles O6: the latched block only compares the word with that of `CLRF`. -/
theorem latchedBlockIgnoresEveryWordButClrf : Obligations.LatchedBlockIgnoresEveryWordButClrf := by
  intro s w rest hhost hlatched
  refine ⟨fun hw => ⟨step_of_ignored hhost hlatched hw, s.hostRead_withHost rest⟩, fun hw => ?_⟩
  subst hw
  rw [step_of_clrf hhost hlatched, exec_clrf]
  exact congrArg Host.Outcome.next (State.clearLatch_of_fault hlatched)

end Sys2Proof.Machine
end

section
/-! What the host may interleave with a decode (R300): each of these commands writes registers, the field
tables, the scratch or the encoder, all of which lie outside the decoder. -/

namespace Sys2Proof.Machine

open Sys2Proof Sys2Proof.Claims

variable {i : Instr} {s t : State}

/-- A state that differs only in the items beside a decode: the register files, the latch, the field unit,
`ESR` and the scratch. -/
theorem sameDecoder_of_frame (h : t = { s with
    x := t.x, p := t.p, fault := t.fault, cause := t.cause, einfo := t.einfo,
    fvalid := t.fvalid, prim := t.prim, tab := t.tab,
    esr := t.esr, scr0 := t.scr0, scr1 := t.scr1, rsel := t.rsel }) : SameDecoder s t := by
  rw [h]
  exact ⟨rfl, rfl, rfl, rfl, rfl, rfl, rfl, rfl, rfl, rfl, rfl, rfl, rfl, rfl, rfl, rfl, rfl, rfl,
    rfl, rfl, rfl, rfl⟩

/-- A command that runs through `attempt` leaves the decoder if its effect does: a fault writes only the
latch (R262). -/
theorem sameDecoder_of_attempt {checks : List Check} {effect : State → State}
    (h : attempt i s checks effect = .next t) (he : SameDecoder s (effect s)) : SameDecoder s t :=
  attempt_keeps (fun _ => sameDecoder_of_frame rfl) (fun _ => he) h

theorem sameDecoder_setX (s : State) (d : XReg) (v : Word) : SameDecoder s (s.setX d v) :=
  sameDecoder_of_frame rfl

theorem sameDecoder_setP (s : State) (d : PReg) (q : PolyReg) : SameDecoder s (s.setP d q) :=
  sameDecoder_of_frame rfl

/-- Settles O21, by what each of the commands writes: the field tables, a scalar register, a polynomial
register, the scratch, or `ESR`. -/
theorem fieldPolynomialAndEncoderCommandsLeaveTheDecoder :
    Obligations.FieldPolynomialAndEncoderCommandsLeaveTheDecoder := by
  intro i s t hi h
  unfold exec at h
  cases i with
  | gfBuild | pRoots | encRst | encBit =>
    exact sameDecoder_of_attempt h (sameDecoder_of_frame rfl)
  | gfAdd d | gfSub d | gfMul d | gfDiv d | gfSum d | gfPow d | gfLog d | gfExp d | gfMullog d
  | gfDivlog d | pGetord d | pStc d | pEval d | pEvalp d | pEvall d | bmHard d =>
    exact sameDecoder_of_attempt h (sameDecoder_setX s d _)
  | pSetord d | pLdc d | pLdci d | pClr d | pMov d | pMul d | pMod d | pDer d | pPows d | pTolog d =>
    exact sameDecoder_of_attempt h (sameDecoder_setP s d _)
  | _ => exact absurd hi Bool.false_ne_true

end Sys2Proof.Machine
end
